-- ==== Sys2Proof/Word.lean ====
section
/-! DEFINITION. The word types of the engine: every value is an unsigned integer of a stated width
(00_scope.md R9; no value of this hardware is signed). -/

namespace Sys2Proof

/-- A byte, 0 to 255 (00_scope.md R9). -/
abbrev Byte := BitVec 8

/-- A CRC value or a `crc_table` entry (41_crc.md R120, R123). -/
abbrev U16 := BitVec 16

/-- A raw reading of the microsecond counter (42_clock.md R140). -/
abbrev U32 := BitVec 32

/-- A time or an interval in microseconds on the extended clock (00_scope.md R10 (c)). -/
abbrev Time := BitVec 64

end Sys2Proof
end

