-- ==== Sys2Proof/Config.lean ====
section
/-! DEFINITION. What is fixed for one instance of the hardware: the constants of 00_scope.md R6, the
parameters of R8, and the free values of the model, which have no body, so that no proof can see what
they are. -/

namespace Sys2Proof.Config

/-- `MAX_MSG`: greatest message length in bytes (00_scope.md R6). -/
def maxMsg : Nat := 248

/-- `BUF_CAP`: capacity of each working buffer (00_scope.md R6). -/
def bufCap : Nat := 256

/-- `HDR_LEN`: payload bytes after the message (00_scope.md R6). -/
def hdrLen : Nat := 4

/-- `MAX_PAYLOAD`: greatest payload length before encoding (00_scope.md R6). -/
def maxPayload : Nat := 252

/-- `MAX_RETRIES` (00_scope.md R6). -/
def maxRetries : Nat := 10

/-- `RETRY_BASE` (00_scope.md R6). -/
def retryBase : Nat := 2

/-- `RETRY_INITIAL_MULTIPLIER` (00_scope.md R6). -/
def retryInitialMultiplier : Nat := 6

/-- `CRC_POLY`, the x^16 term implied (00_scope.md R6). -/
def crcPoly : U16 := 0x1021#16

/-- `CRC_INIT` (00_scope.md R6). -/
def crcInit : U16 := 0xFFFF#16

/-- `DELIM`, the byte COBS removes (00_scope.md R6). -/
def delim : Byte := 0x00#8

/-- Least baud rate `BEGIN` accepts (00_scope.md R7). -/
def baudMin : Nat := 10

/-- Greatest baud rate `BEGIN` accepts (00_scope.md R7). -/
def baudMax : Nat := 10000000

/-- The divisor of `EWMA_ALPHA` = 1/100 (00_scope.md R6). -/
def ewmaAlphaDivisor : Nat := 100

/-- The values of the numeric type `StatReal` (00_scope.md R8): each is named by a rational, and 0 by 0. What the type's operations
do with them is the parameter `StatArith`. DESIGN CHOICE (log 15). -/
abbrev StatReal := Rat

/-- The operations of `StatReal` that a rule uses (44_link_rx.md R190, 43_link_host.md R173). -/
inductive StatOp where
  | add
  | sub
  | mul
  | div
  deriving DecidableEq, Repr

/-- The arithmetic of `StatReal`: "rounding, if the type has any, is the parameter's affair" (44_link_rx.md R190; log 15). -/
inductive StatArith where
  /-- Exact rationals, the default (00_scope.md R8). -/
  | exact
  /-- Any other numeric type, the `k`-th: its operations are the free values `statArith k` and `statOfNat k`. -/
  | free (k : Nat)
  deriving DecidableEq, Repr

/-- The parameters of 00_scope.md R8 that are values of an instance; `B` is the operand of `BEGIN`, and the transport and the counter
are external agents. A value outside its constraint makes no instance (93_implementation_defined.md V4). -/
structure Params where
  /-- `OUR_SEQ_INIT`. -/
  ourSeqInit : Byte
  /-- `CNT_W`, the width of the five event counters in bits. -/
  cntW : Nat
  /-- The arithmetic of `StatReal`. -/
  statReal : StatArith
  /-- `OUR_SEQ_INIT` "MUST NOT be zero". -/
  seqLegal : (ourSeqInit != 0x00#8) = true
  /-- `CNT_W` is at least 1. -/
  widthLegal : 1 ≤ cntW
  deriving DecidableEq, Repr

/-- The defaults of 00_scope.md R8: 12, 32, exact rationals (log 13, 14, 15). -/
def Params.default : Params :=
  { ourSeqInit := 12#8, cntW := 32, statReal := .exact, seqLegal := by decide, widthLegal := by decide }

/-- What a buffer byte that nothing has written reads as. DESIGN CHOICE, unsafe (log 11): 10_state.md R37
leaves the contents unspecified, and no rule reads such a byte. -/
def unwrittenByte : Byte := 0x00#8

/-- Free value: the `n`-th reading of `micros()` beyond those State lists (42_clock.md R140; log 5). -/
opaque micros : Nat → U32

/-- Free value: the result of an operation of the `k`-th numeric type (44_link_rx.md R190; log 15). -/
opaque statArith : (k : Nat) → StatOp → StatReal → StatReal → StatReal

/-- Free value: a natural number in the `k`-th numeric type (44_link_rx.md R190; log 15). -/
opaque statOfNat : (k : Nat) → Nat → StatReal

/-- Free value: the `n`-th answer of `T.available_for_write()` beyond those State lists (20_memory.md R67; log 6). -/
opaque writeSpace : Nat → Nat

/-- Free value: what the buffers hold after the RESET event (10_state.md R37, 70_reset_and_hazards.md R300; log 12). -/
opaque resetBytes : Nat → List Byte

end Sys2Proof.Config
end

