-- ==== Sys2Proof/Machine/Cobs.lean ====
section
/-! DEFINITION. The COBS codec as pure functions of byte sequences (40_cobs.md). The meanings of `COBS_ENC`, `COBS_DEC`
and of the code classes are in UnitOps and CodeClasses. -/

namespace Sys2Proof.Machine

/-- Closing a block writes its code, 1 + the data bytes since the code pointer, at the code pointer (40_cobs.md R100). -/
def cobsClose (blk : List Byte) : List Byte := BitVec.ofNat 8 (blk.length + 1) :: blk

/-- The encoder's loop: `blk` holds the data bytes written since the code pointer, so the running `code` is
`blk.length + 1` (40_cobs.md R100). -/
def cobsEncFrom : List Byte → List Byte → List Byte
  | [], blk => cobsClose blk
  | b :: bs, blk =>
    if b = Config.delim then cobsClose blk ++ cobsEncFrom bs []
    else if blk.length + 2 = 0xFF then cobsClose (blk ++ [b]) ++ cobsEncFrom bs []
    else cobsEncFrom bs (blk ++ [b])

/-- `COBS_ENC(in)` (40_cobs.md R100). -/
def cobsEnc (input : List Byte) : List Byte := cobsEncFrom input []

/-- The decoder's loop from a state of its variables `code` and `block` (40_cobs.md R103); the result is what is
written from here on. -/
def cobsDecFrom : List Byte → (code : Byte) → (block : Nat) → List Byte
  | [], _, _ => []
  | b :: bs, code, block =>
    if b = Config.delim then []
    else if block = 0 then
      (if code = 0xFF#8 then [] else [0x00#8]) ++ cobsDecFrom bs b (b.toNat - 1)
    else b :: cobsDecFrom bs code (block - 1)

/-- `COBS_DEC(in, n)` with `n` the length of `in`; `L` is the length of the result (40_cobs.md R103). -/
def cobsDec (input : List Byte) : List Byte := cobsDecFrom input 0xFF#8 0

/-- The data bytes of one block of `k` bytes: those copied, the input left, and whether decoding stopped inside the
block, at a 0x00 or at the end of the input (40_cobs.md R103, R105). -/
def cobsBlock : (k : Nat) → List Byte → List Byte × List Byte × Bool
  | 0, input => ([], input, false)
  | _ + 1, [] => ([], [], true)
  | k + 1, b :: bs =>
    if b = Config.delim then ([], [], true)
    else
      let (data, rest, stopped) := cobsBlock k bs
      (b :: data, rest, stopped)

end Sys2Proof.Machine
end

