-- ==== Sys2Proof/Machine/State.lean ====
section
/-! DEFINITION. The state of one engine instance (10_state.md), of the agents it talks to as data, and the ways a step can
stop. Grouped by the spec's own sections. -/

namespace Sys2Proof.Machine

/-- One byte buffer: (index, byte) cells in canonical form (`Memory.wf` in Ops); an index not listed reads
`Config.unwrittenByte` (log 11). -/
abbrev Memory := List Host.Cell

/-- The four byte buffers, by name (20_memory.md R60). -/
inductive Buffer where
  | outgoing
  | incoming
  | tx
  | rx
  deriving DecidableEq, Repr

/-- The eight error kinds, E1 to E8 in order (60_exceptions.md R241). -/
inductive ErrorKind where
  /-- E1, decoded length below 4 or above 252 (60_exceptions.md R250). -/
  | malformedFrame
  /-- E2, computed CRC differs from the received one (60_exceptions.md R251). -/
  | crcMismatch
  /-- E3, the receive write pointer hit the capacity (60_exceptions.md R252). -/
  | inboundOverflow
  /-- E4, an acknowledgement for no outgoing message (60_exceptions.md R253). -/
  | ackForUnknown
  /-- E5, `retry_count > MAX_RETRIES` (60_exceptions.md R254). -/
  | retransmissionExhausted
  /-- E6, peer silent for longer than `keepalive_rx_interval` (60_exceptions.md R255). -/
  | peerSilent
  /-- E7, `SEND` while busy (60_exceptions.md R256). -/
  | sendWhileBusy
  /-- E8, `READ` while empty (60_exceptions.md R257). -/
  | readWhileEmpty
  deriving DecidableEq, Repr

/-- Why the machine stops with a fault. -/
inductive Fault where
  /-- An access of `buf` up to `bound` (exclusive), beyond its capacity; raised by `memRead` and `memWrite`. Safe: the spec
  says such an access cannot arise and that a model may make it a fault (20_memory.md R69). -/
  | bufferBound (buf : Buffer) (bound : Nat)
  deriving DecidableEq, Repr

/-- Why an operation has no meaning. -/
inductive Refusal where
  /-- An instruction whose meaning is not written yet; raised by `exec` only. Safe. -/
  | notModelled (mnemonic : String)
  /-- A coded operation other than `BEGIN` while `configured == 0`; raised by every such meaning (43_link_host.md R161). Safe:
  the spec says `refuse`. -/
  | notConfigured
  /-- `BEGIN` while `configured == 1`; raised by `BEGIN` (43_link_host.md R160). Safe: the spec says `refuse`. -/
  | alreadyConfigured
  /-- `BEGIN` with `B` outside 10 to 10_000_000; raised by `BEGIN` (43_link_host.md R160). Safe: the spec says `refuse`. -/
  | baudOutOfRange (baud : Nat)
  /-- Command code 0x0, 0xE or 0xF; raised by the fetch (30_encoding.md R87, R96). Safe: the spec says `refuse`. -/
  | reservedCommand (code : Byte)
  /-- A transaction that is no command word with its operands; raised by the fetch. Safe: the transaction's form is the
  model's own (log 2). -/
  | malformedTransaction
  /-- `LOAD_FRAME` while `tx_len != 0`; raised by `LOAD_FRAME` issued on its own, never inside `TICK` (45_link_tx.md R220,
  precondition; 10_state.md R43). Safe (log 19). -/
  | txBufferOccupied
  /-- An operand outside the form of its row (`Instr.wf` false); raised by the meanings of the internal steps, the frame kinds
  and `COBS.RUN`. Safe: no encoding and no caller produces one (log 20). -/
  | operandOutOfForm (mnemonic : String)
  deriving DecidableEq, Repr

/-- An event counter: below `2^CNT_W` of its instance (10_state.md R33; counted by `countUp` in Ops). -/
abbrev Counter := Nat

/-- The configuration registers (10_state.md R21). -/
structure ConfigRegs where
  configured : Bool
  usPerByte : Time
  retryAbsMax : Time
  keepaliveTxInterval : Time
  keepaliveRxInterval : Time
  deriving DecidableEq, Repr

/-- The registers of the outbound half (10_state.md R22, R25 to R29, R35). -/
structure Outbound where
  /-- `our_seq` (R22) -/
  ourSeq : Byte
  /-- `outgoing_len` (R25) -/
  outgoingLen : BitVec 8
  /-- `retry_count` (R26) -/
  retryCount : BitVec 8
  /-- `last_tx_time` (R27) -/
  lastTxTime : Time
  /-- `timeout` (R28) -/
  timeout : Time
  /-- `tx_start_time` (R29) -/
  txStartTime : Time
  /-- `last_tx_out` (R35) -/
  lastTxOut : Time
  deriving DecidableEq, Repr

/-- The registers of the inbound half (10_state.md R23, R24, R30, R31, R35). -/
structure Inbound where
  /-- `ack_seq` (R23) -/
  ackSeq : Byte
  /-- `peer_seq_awaiting_read` (R24) -/
  peerSeq : Byte
  /-- `incoming_len` (R30) -/
  incomingLen : BitVec 8
  /-- `ack_required` (R31) -/
  ackRequired : Bool
  /-- `last_rx` (R35) -/
  lastRx : Time
  deriving DecidableEq, Repr

/-- The pointer registers, 9 bits each (10_state.md R32). -/
structure Pointers where
  /-- `tx_len` -/
  txLen : BitVec 9
  /-- `tx_rp` -/
  txRp : BitVec 9
  /-- `rx_wp` -/
  rxWp : BitVec 9
  deriving DecidableEq, Repr

/-- The statistics registers (10_state.md R33, R34). -/
structure StatRegs where
  rxOk : Counter
  rxFail : Counter
  txOk : Counter
  txFail : Counter
  txTotalRetries : Counter
  maxRetryIntervalIssued : Time
  avgTotalTransmitTime : Config.StatReal
  avgWireTime : Config.StatReal
  deriving DecidableEq, Repr

/-- The clock extender registers (10_state.md R36). -/
structure ClockRegs where
  /-- `clk_last` -/
  last : U32
  /-- `clk_overflows` -/
  overflows : U32
  deriving DecidableEq, Repr

/-- The contents of the four byte buffers (10_state.md R37). -/
structure Buffers where
  outgoing : Memory
  incoming : Memory
  tx : Memory
  rx : Memory
  deriving DecidableEq, Repr

/-- The transport and the counter as the engine meets them: inputs it will see and what it has handed over
(60_exceptions.md R242, R243; log 5 to 9). Not registers of the engine (10_state.md R20). -/
structure Environment where
  /-- Bytes the transport has buffered for `T.read()`, oldest first (20_memory.md R66). -/
  rxFifo : List Byte
  /-- Batches of bytes the transport adds, one before each coming `T.available()` (20_memory.md R66, D29). -/
  arrivals : List (List Byte)
  /-- Bytes handed over by `T.write`, oldest first (20_memory.md R67). -/
  txFifo : List Byte
  /-- The coming answers of `T.available_for_write()` (20_memory.md R67). -/
  writeSpace : List Nat
  /-- How many answers of `Config.writeSpace` have been used. -/
  spaceQueries : Nat
  /-- The argument of `T.begin`, once called (60_exceptions.md R242). -/
  baud : Option Nat
  /-- The coming readings of `micros()` (42_clock.md R140). -/
  micros : List U32
  /-- How many readings of `Config.micros` have been used. -/
  microsReads : Nat
  /-- How many RESET events have left free buffer contents. -/
  resets : Nat
  deriving DecidableEq, Repr

/-- The nine fields of the `STATS` snapshot, in the source's order (30_encoding.md R90). -/
structure StatsRecord where
  rxOk : Counter
  rxFail : Counter
  txOk : Counter
  txFail : Counter
  txTotalRetries : Counter
  maxRetryIntervalIssued : Time
  avgTotalTransmitTime : Config.StatReal
  avgWireTime : Config.StatReal
  avgRetryCount : Config.StatReal
  deriving DecidableEq, Repr

/-- What an operation hands to the host (`return v`, 00_scope.md R11; result forms 30_encoding.md R96). -/
inductive Response where
  | none
  | bit (b : Bool)
  | bytes (data : List Byte)
  | bytesLen (data : List Byte) (len : Nat)
  | u16 (v : U16)
  | time (t : Time)
  | stats (r : StatsRecord)
  | real (v : Config.StatReal)
  deriving DecidableEq, Repr

/-- The host's side of the interface: the model's own (log 1, 12, 24). -/
structure HostPort where
  /-- Transactions not yet issued, the next one first; each is a command word and its operands as bytes. -/
  pending : List (List Byte)
  /-- The reset event is requested. -/
  resetRequest : Bool
  /-- The last result handed to the host. -/
  response : Response
  deriving DecidableEq, Repr

/-- The COBS decoder's working variables when it is run one block at a time (40_cobs.md R103; log 22). The coded operation
`COBS_DEC` and `RX_FRAME` run the decoder whole and do not use them. -/
structure CobsUnit where
  /-- The next step reads a byte in code position from `input`. -/
  active : Bool
  /-- The input from the read index on. -/
  input : List Byte
  /-- The bytes written so far. -/
  out : List Byte
  /-- The previous code byte; 0xFF means that no zero is owed. -/
  code : Byte
  deriving DecidableEq, Repr

/-- The whole state: plain data. -/
structure State where
  /-- The parameters of this instance: no operation and no event writes them (00_scope.md R8; log 13). -/
  params : Config.Params
  cfg : ConfigRegs
  outb : Outbound
  inb : Inbound
  ptr : Pointers
  stat : StatRegs
  clk : ClockRegs
  buf : Buffers
  env : Environment
  host : HostPort
  cobs : CobsUnit
  deriving DecidableEq, Repr

/-- The decoder before its first byte (40_cobs.md R103). -/
def CobsUnit.initial : CobsUnit := { active := false, input := [], out := [], code := 0xFF#8 }

/-- The state after reset of the instance with the parameters `p` (10_state.md R47, 70_reset_and_hazards.md R300). The four
configuration registers hold 0 (log 10), no buffer byte is listed (log 11), no input is waiting (log 3, 5 to 8). -/
def State.resetWith (p : Config.Params) : State where
  params := p
  cfg := { configured := false, usPerByte := 0, retryAbsMax := 0, keepaliveTxInterval := 0, keepaliveRxInterval := 0 }
  outb := { ourSeq := p.ourSeqInit, outgoingLen := 0, retryCount := 0, lastTxTime := 0, timeout := 0, txStartTime := 0, lastTxOut := 0 }
  inb := { ackSeq := 0, peerSeq := 0, incomingLen := 0, ackRequired := false, lastRx := 0 }
  ptr := { txLen := 0, txRp := 0, rxWp := 0 }
  stat := { rxOk := 0, rxFail := 0, txOk := 0, txFail := 0, txTotalRetries := 0, maxRetryIntervalIssued := 0,
            avgTotalTransmitTime := 0, avgWireTime := 0 }
  clk := { last := 0, overflows := 0 }
  buf := { outgoing := [], incoming := [], tx := [], rx := [] }
  env := { rxFifo := [], arrivals := [], txFifo := [], writeSpace := [], spaceQueries := 0, baud := none, micros := [],
           microsReads := 0, resets := 0 }
  host := { pending := [], resetRequest := false, response := .none }
  cobs := CobsUnit.initial

/-- The machine right after reset, every parameter at its default (10_state.md R47, 00_scope.md R8; log 13, 14, 15). -/
def State.reset : State := State.resetWith Config.Params.default

end Sys2Proof.Machine
end

