-- ==== Sys2Proof/Machine/Ops.lean ====
section
/-! DEFINITION. The named operations over buffers, registers, the transport and the host's side, and the shared error
response. Every meaning is written over these. -/

namespace Sys2Proof.Machine

/-- One pseudocode line after another: the first fault ends the operation. -/
def andThen {α β : Type} (r : Except Fault α) (k : α → Except Fault β) : Except Fault β :=
  match r with
  | .ok a => k a
  | .error f => .error f

/-! ## Buffers (20_memory.md R60 to R64, R69; 00_scope.md R11) -/

/-- The cells from index `lo` on are strictly rising and none equals what an unlisted index reads as. -/
def memWfFrom : (lo : Nat) → Memory → Bool
  | _, [] => true
  | lo, (a, b) :: m => decide (lo ≤ a) && (b != Config.unwrittenByte) && memWfFrom (a + 1) m

/-- The canonical form of a buffer's contents. -/
def Memory.wf (m : Memory) : Bool := memWfFrom 0 m

/-- `buf[i]` as a read of the contents. -/
def memReadByte : Memory → Nat → Byte
  | [], _ => Config.unwrittenByte
  | (a, b) :: m, i => if a = i then b else memReadByte m i

/-- `buf[i] <- v` on the contents, keeping the canonical form. -/
def memWriteByte : Memory → Nat → Byte → Memory
  | [], i, v => if v = Config.unwrittenByte then [] else [(i, v)]
  | (a, b) :: m, i, v =>
    if a < i then (a, b) :: memWriteByte m i v
    else if a = i then (if v = Config.unwrittenByte then m else (i, v) :: m)
    else if v = Config.unwrittenByte then (a, b) :: m else (i, v) :: (a, b) :: m

/-- The `n` bytes from index `i`, lowest index first. -/
def memReadBytes (m : Memory) : (i n : Nat) → List Byte
  | _, 0 => []
  | i, n + 1 => memReadByte m i :: memReadBytes m (i + 1) n

/-- Writes a byte sequence from index `i`, lowest index first. -/
def memWriteBytes (m : Memory) : (i : Nat) → List Byte → Memory
  | _, [] => m
  | i, b :: bs => memWriteBytes (memWriteByte m i b) (i + 1) bs

/-- Capacity in bytes (20_memory.md R60). -/
def capacity : Buffer → Nat
  | .outgoing => Config.maxMsg
  | .incoming => Config.maxMsg
  | .tx => Config.bufCap
  | .rx => Config.bufCap

/-- The contents of a buffer. -/
def getBuf (s : State) : Buffer → Memory
  | .outgoing => s.buf.outgoing
  | .incoming => s.buf.incoming
  | .tx => s.buf.tx
  | .rx => s.buf.rx

/-- Replaces the contents of a buffer. -/
def setBuf (s : State) (b : Buffer) (m : Memory) : State :=
  match b with
  | .outgoing => { s with buf := { s.buf with outgoing := m } }
  | .incoming => { s with buf := { s.buf with incoming := m } }
  | .tx => { s with buf := { s.buf with tx := m } }
  | .rx => { s with buf := { s.buf with rx := m } }

/-- `MemRead(buf, i, n)`, a fault when an index is not below the capacity (20_memory.md R69; log 23). -/
def memRead (s : State) (b : Buffer) (i n : Nat) : Except Fault (List Byte) :=
  if i + n ≤ capacity b then .ok (memReadBytes (getBuf s b) i n) else .error (.bufferBound b (i + n))

/-- `MemWrite(buf, i, n, v)` with `n` the length of `v`, a fault when an index is not below the capacity
(20_memory.md R69; log 23). -/
def memWrite (s : State) (b : Buffer) (i : Nat) (v : List Byte) : Except Fault State :=
  if i + v.length ≤ capacity b then .ok (setBuf s b (memWriteBytes (getBuf s b) i v))
  else .error (.bufferBound b (i + v.length))

/-! ## The transport and the counter (60_exceptions.md R242, R243) -/

/-- `micros()`: the next reading listed, or a free value when none is (42_clock.md R140; log 5). -/
def readMicros (s : State) : U32 × State :=
  match s.env.micros with
  | m :: ms => (m, { s with env := { s.env with micros := ms } })
  | [] => (Config.micros s.env.microsReads, { s with env := { s.env with microsReads := s.env.microsReads + 1 } })

/-- What has arrived by the next `T.available()`: the next batch listed joins the inbound FIFO (20_memory.md R66, D29; log 7).
`T.available() > 0` is then that the FIFO holds a byte. -/
def pollArrivals (s : State) : State :=
  match s.env.arrivals with
  | [] => s
  | a :: as => { s with env := { s.env with rxFifo := s.env.rxFifo ++ a, arrivals := as } }

/-- `T.read()` of a FIFO whose oldest byte is `b` leaves the bytes `rest` (20_memory.md R66). -/
def tReadLeaves (s : State) (rest : List Byte) : State := { s with env := { s.env with rxFifo := rest } }

/-- `T.available_for_write()`: the next answer listed, or a free value when none is (20_memory.md R67; log 6). -/
def tAvailableForWrite (s : State) : Nat × State :=
  match s.env.writeSpace with
  | n :: ns => (n, { s with env := { s.env with writeSpace := ns } })
  | [] => (Config.writeSpace s.env.spaceQueries, { s with env := { s.env with spaceQueries := s.env.spaceQueries + 1 } })

/-- `T.write(b)` for each byte of `bs` in order (20_memory.md R67; log 8). -/
def tWrite (s : State) (bs : List Byte) : State := { s with env := { s.env with txFifo := s.env.txFifo ++ bs } }

/-- `T.begin(B)` (60_exceptions.md R242; log 9). -/
def tBegin (s : State) (baud : Nat) : State := { s with env := { s.env with baud := some baud } }

/-! ## The instance's parameters in arithmetic (00_scope.md R8) -/

/-- A counter up by one, wrapping modulo `2^CNT_W` (10_state.md R33, 00_scope.md R10 (f)). -/
def countUp (p : Config.Params) (c : Counter) : Counter := (c + 1) % 2 ^ p.cntW

/-- An operation of `StatReal` (44_link_rx.md R190, 43_link_host.md R173; log 15). -/
def statOp (a : Config.StatArith) (op : Config.StatOp) (x y : Config.StatReal) : Config.StatReal :=
  match a, op with
  | .exact, .add => x + y
  | .exact, .sub => x - y
  | .exact, .mul => x * y
  | .exact, .div => x / y
  | .free k, op => Config.statArith k op x y

/-- A natural number in `StatReal`, which represents 0 (00_scope.md R8; log 15). -/
def statOfNat (a : Config.StatArith) (n : Nat) : Config.StatReal :=
  match a, n with
  | _, 0 => 0
  | .exact, n + 1 => ((n + 1 : Nat) : Config.StatReal)
  | .free k, n + 1 => Config.statOfNat k (n + 1)

/-! ## Register updates shared by several rules -/

/-- "reset outbound state": `outgoing_len <- 0; last_tx_time <- 0; retry_count <- 0` (30_encoding.md R98, 44_link_rx.md R189). -/
def resetOutbound (s : State) : State :=
  { s with outb := { s.outb with outgoingLen := 0, lastTxTime := 0, retryCount := 0 } }

/-- The error response of a kind: exactly what 60_exceptions.md R241 records, and the reset of the outbound registers for E5
(R248). Nothing is saved, no control is transferred; the caller goes on as its own rule says (R240, R249; log 28). -/
def raiseError (k : ErrorKind) (s : State) : State :=
  match k with
  | .malformedFrame => { s with stat := { s.stat with rxFail := countUp s.params s.stat.rxFail } }
  | .crcMismatch => { s with stat := { s.stat with rxFail := countUp s.params s.stat.rxFail } }
  | .inboundOverflow => { s with ptr := { s.ptr with rxWp := 0 } }
  | .ackForUnknown => s
  | .retransmissionExhausted => resetOutbound { s with stat := { s.stat with txFail := countUp s.params s.stat.txFail } }
  | .peerSilent => s
  | .sendWhileBusy => s
  | .readWhileEmpty => s

/-! ## Ends of an operation -/

/-- `return v` (00_scope.md R11; log 24). -/
def respond (s : State) (r : Response) : State := { s with host := { s.host with response := r } }

/-- The outcome of a pseudocode that can only go out of a buffer's bounds. -/
def finish (r : Except Fault State) : Host.Outcome State Fault Refusal :=
  match r with
  | .ok s => .next s
  | .error f => .fault f

/-- The first line of every coded operation but `BEGIN`: `if configured == 0: refuse` (43_link_host.md R161). -/
def whenConfigured (s : State) (r : Host.Outcome State Fault Refusal) : Host.Outcome State Fault Refusal :=
  if s.cfg.configured then r else .refused .notConfigured

/-- An internal step, a frame kind or a code class whose operand is outside its row's form has no meaning (log 20). -/
def whenInForm (ok : Bool) (mnemonic : String) (r : Host.Outcome State Fault Refusal) : Host.Outcome State Fault Refusal :=
  if ok then r else .refused (.operandOutOfForm mnemonic)

end Sys2Proof.Machine
end

