-- ==== Sys2Proof/Syntax.lean ====
section
/-! DEFINITION. The instruction set: one constructor per row of spec/opcode_table.json. "Instruction" is read as
operation of the block (00_scope.md, opening): a coded host operation, an internal step, the reset event, a kind of
frame, or a class of COBS code byte. Operand forms: 30_encoding.md R97 and the operand line of each operation's rule. -/

namespace Sys2Proof

/-- One operation of the engine. -/
inductive Instr where
  /-- `BEGIN(B)`: configure for baud rate `B` (43_link_host.md R160). -/
  | begin (baud : Nat)
  /-- `TICK()`: one unit of work (44_link_rx.md R180). -/
  | tick
  /-- `SEND(buf)`: hand over a message (43_link_host.md R163). -/
  | send (buf : List Byte)
  /-- `READ(max)`: take the held message (43_link_host.md R165). -/
  | read (max : Nat)
  /-- `IS_OPEN()` (43_link_host.md R166). -/
  | isOpen
  /-- `CLEAR_TO_SEND()` (43_link_host.md R162). -/
  | clearToSend
  /-- `CLEAR_TO_READ()` (43_link_host.md R164). -/
  | clearToRead
  /-- `STATS()` (43_link_host.md R172). -/
  | stats
  /-- `CRC16(s)` (41_crc.md R124). -/
  | crc16 (s : List Byte)
  /-- `COBS_ENC(in)` (40_cobs.md R100). -/
  | cobsEnc (input : List Byte)
  /-- `COBS_DEC(in, n)`, `n` the length of `in` (40_cobs.md R103). -/
  | cobsDec (input : List Byte)
  /-- `CLK_SAMPLE()` (42_clock.md R141). -/
  | clkSample
  /-- `BACKOFF(retry_count)` (45_link_tx.md R222). -/
  | backoff (retryCount : Nat)
  /-- `AVG_RETRY_COUNT()`, inside `STATS` (43_link_host.md R173). -/
  | avgRetryCount
  /-- `CRC_STEP(crc, b)`, inside `CRC16` (41_crc.md R121). -/
  | crcStep (crc : U16) (b : Byte)
  /-- `RX_DRAIN(now)`, inside `TICK` (44_link_rx.md R181). -/
  | rxDrain (now : Time)
  /-- `RX_BYTE(b, now)`, inside `RX_DRAIN` (44_link_rx.md R184). -/
  | rxByte (b : Byte) (now : Time)
  /-- `RX_FRAME(n, now)`, inside `RX_BYTE` (44_link_rx.md R185). -/
  | rxFrame (n : Nat) (now : Time)
  /-- `ACK_HANDLING(incoming_ack, now)`, inside `RX_FRAME` (44_link_rx.md R189). -/
  | ackHandling (incomingAck : Byte) (now : Time)
  /-- `EWMA_UPDATE(now)`, inside `ACK_HANDLING` (44_link_rx.md R190). -/
  | ewmaUpdate (now : Time)
  /-- `DATA_HANDLING(incoming_seq, d, L, now)` with `L` the length of `d`, inside `RX_FRAME` (44_link_rx.md R191). -/
  | dataHandling (incomingSeq : Byte) (d : List Byte) (now : Time)
  /-- `TX_SELECT(now)`, inside `TICK` (45_link_tx.md R210). -/
  | txSelect (now : Time)
  /-- `LOAD_FRAME(msg)`, inside `TX_SELECT` (45_link_tx.md R220). -/
  | loadFrame (msg : List Byte)
  /-- `TX_PUSH()`, inside `TICK` (45_link_tx.md R224). -/
  | txPush
  /-- `RESET`, the event that creates the engine (70_reset_and_hazards.md R300). -/
  | reset
  /-- `FRAME.SHORT`: a decoded payload of 0 to 3 bytes (30_encoding.md R82). -/
  | frameShort (payload : List Byte)
  /-- `FRAME.ACK_ONLY`: a decoded payload of 4 bytes (30_encoding.md R82). -/
  | frameAckOnly (ackSeq ourSeq : Byte) (crc : U16)
  /-- `FRAME.DATA`: a decoded payload of 5 to 252 bytes (30_encoding.md R82). -/
  | frameData (msg : List Byte) (ackSeq ourSeq : Byte) (crc : U16)
  /-- `FRAME.LONG`: a decoded payload of 253 bytes or more (30_encoding.md R82). -/
  | frameLong (payload : List Byte)
  /-- `COBS.DELIM`: 0x00 in code position (30_encoding.md R84). -/
  | cobsDelim
  /-- `COBS.RUN`: a code byte 0x01 to 0xFE (30_encoding.md R84). -/
  | cobsRun (c : Byte)
  /-- `COBS.FULL`: the code byte 0xFF (30_encoding.md R84). -/
  | cobsFull
  deriving DecidableEq, Repr

end Sys2Proof
end

