-- ==== Sys2Proof/WellFormed.lean ====
section
/-! DEFINITION. Which terms of `Instr` are operations the spec has: each operand inside the range its rule states. -/

namespace Sys2Proof

/-- The operand ranges of 30_encoding.md R97 (host operations), of the rules of the internal steps, of R82
(decoded lengths) and of R84 (code bytes). -/
def Instr.wf : Instr → Bool
  | .begin b => decide (Config.baudMin ≤ b) && decide (b ≤ Config.baudMax)
  | .tick => true
  | .send _ => true
  | .read _ => true
  | .isOpen => true
  | .clearToSend => true
  | .clearToRead => true
  | .stats => true
  | .crc16 _ => true
  | .cobsEnc _ => true
  | .cobsDec _ => true
  | .clkSample => true
  | .backoff _ => true
  | .avgRetryCount => true
  | .crcStep _ _ => true
  | .rxDrain _ => true
  | .rxByte _ _ => true
  | .rxFrame n _ => decide (1 ≤ n) && decide (n ≤ Config.bufCap)
  | .ackHandling _ _ => true
  | .ewmaUpdate _ => true
  | .dataHandling _ d _ => decide (Config.hdrLen < d.length) && decide (d.length ≤ Config.maxPayload)
  | .txSelect _ => true
  | .loadFrame msg => decide (msg.length ≤ Config.maxMsg)
  | .txPush => true
  | .reset => true
  | .frameShort d => decide (d.length < Config.hdrLen)
  | .frameAckOnly _ _ _ => true
  | .frameData msg _ _ _ => decide (1 ≤ msg.length) && decide (msg.length ≤ Config.maxMsg)
  | .frameLong d => decide (Config.maxPayload < d.length)
  | .cobsDelim => true
  | .cobsRun c => c != 0x00#8 && c != 0xFF#8
  | .cobsFull => true

end Sys2Proof
end

