-- ==== Sys2Proof/Machine/CodeClasses.lean ====
section
/-! DEFINITION. The three classes of COBS code byte (30_encoding.md R84), each as one block of the decoder of 40_cobs.md R103 run on the
working variables State holds (log 22). -/

namespace Sys2Proof.Machine

/-- Decoding stops: the bytes written so far and their count are the result, and the decoder is as before its first byte. -/
def cobsStop (out : List Byte) (s : State) : State :=
  respond { s with cobs := CobsUnit.initial } (.bytesLen out out.length)

/-- The zero the previous block stood for, written when the next code byte is read (40_cobs.md R103). -/
def owedZero (code : Byte) : List Byte := if code = 0xFF#8 then [] else [0x00#8]

/-- A code byte `c`, not 0x00, in code position, and the `c - 1` data bytes after it; a 0x00 or the end of the input among them
stops decoding (40_cobs.md R103, R105). -/
def cobsCodeBlock (c : Byte) (s : State) : State :=
  let (data, rest, stopped) := cobsBlock (c.toNat - 1) s.cobs.input
  let out := s.cobs.out ++ owedZero s.cobs.code ++ data
  if stopped then cobsStop out s else { s with cobs := { s.cobs with input := rest, out := out, code := c } }

/-- `COBS.DELIM` (30_encoding.md R84). -/
def execCobsDelim (s : State) : Host.Outcome State Fault Refusal := .next (cobsStop s.cobs.out s)

/-- `COBS.RUN` (30_encoding.md R84). -/
def execCobsRun (c : Byte) (s : State) : Host.Outcome State Fault Refusal :=
  whenInForm (Instr.cobsRun c).wf "COBS.RUN" (.next (cobsCodeBlock c s))

/-- `COBS.FULL` (30_encoding.md R84). -/
def execCobsFull (s : State) : Host.Outcome State Fault Refusal := .next (cobsCodeBlock 0xFF#8 s)

end Sys2Proof.Machine
end

