-- ==== Sys2Proof/Machine/Clock.lean ====
section
/-! DEFINITION. The microsecond clock extender (42_clock.md R141 to R146). -/

namespace Sys2Proof.Machine

/-- `(zext_64(overflows) << 32) | zext_64(cur)` (42_clock.md R142, 30_encoding.md R89). -/
def composeTime (overflows cur : U32) : Time := overflows ++ cur

/-- The registers after a sample that reads `cur`: a wrap is `cur < clk_last` and nothing else (42_clock.md R141, R143). -/
def clkAdvance (c : ClockRegs) (cur : U32) : ClockRegs :=
  { last := cur, overflows := if cur < c.last then c.overflows + 1 else c.overflows }

/-- The time the registers stand for: the result of the last sample. -/
def clkTime (c : ClockRegs) : Time := composeTime c.overflows c.last

/-- `CLK_SAMPLE()`: read the counter, advance the registers, return the extended time (42_clock.md R141). -/
def clkSample (s : State) : Time × State :=
  let (cur, s1) := readMicros s
  let c := clkAdvance s.clk cur
  (clkTime c, { s1 with clk := c })

end Sys2Proof.Machine
end

