-- ==== Sys2Proof/Machine/Flags.lean ====
section
/-! DEFINITION. The flag and every predicate computed from registers (10_state.md R31, R40 (d); 42_clock.md R147;
45_link_tx.md R226, R227). The engine has one stored flag, `ack_required`, and no arithmetic sets one. -/

namespace Sys2Proof.Machine

/-- `ack_required <- v` (10_state.md R31). -/
def setAckRequired (s : State) (v : Bool) : State := { s with inb := { s.inb with ackRequired := v } }

/-- `clear_to_send = (outgoing_len == 0)` (10_state.md R31). -/
def clearToSend (s : State) : Bool := s.outb.outgoingLen == 0

/-- `clear_to_read = (incoming_len > 0)` (10_state.md R31). -/
def clearToRead (s : State) : Bool := decide (0 < s.inb.incomingLen)

/-- `is_open = (now - last_rx <= keepalive_rx_interval)` (10_state.md R31). -/
def isOpenAt (s : State) (now : Time) : Bool := decide (now - s.inb.lastRx ≤ s.cfg.keepaliveRxInterval)

/-- The retry timer has expired: `now - last_tx_time > timeout`, strict (42_clock.md R147). -/
def retryExpired (s : State) (now : Time) : Bool := decide (s.outb.timeout < now - s.outb.lastTxTime)

/-- The keepalive timer has expired: `now - last_tx_out > keepalive_tx_interval`, strict (42_clock.md R147). -/
def keepaliveExpired (s : State) (now : Time) : Bool := decide (s.cfg.keepaliveTxInterval < now - s.outb.lastTxOut)

/-- Outbound IDLE: `outgoing_len == 0` (45_link_tx.md R226). -/
def outboundIdle (s : State) : Bool := s.outb.outgoingLen == 0

/-- Outbound PENDING: `outgoing_len > 0` and `last_tx_time == 0` (45_link_tx.md R226). -/
def outboundPending (s : State) : Bool := decide (0 < s.outb.outgoingLen) && s.outb.lastTxTime == 0

/-- Outbound AWAITING_ACK: `outgoing_len > 0` and `last_tx_time != 0` (45_link_tx.md R226). -/
def outboundAwaitingAck (s : State) : Bool := decide (0 < s.outb.outgoingLen) && s.outb.lastTxTime != 0

/-- Inbound EMPTY: `incoming_len == 0` (45_link_tx.md R227). -/
def inboundEmpty (s : State) : Bool := s.inb.incomingLen == 0

/-- Inbound HELD: `incoming_len > 0` (45_link_tx.md R227). -/
def inboundHeld (s : State) : Bool := decide (0 < s.inb.incomingLen)

end Sys2Proof.Machine
end

