-- ==== Sys2Proof/Machine/Operands.lean ====
section
/-! DEFINITION. Operand forms: how a natural number and a byte sequence stand in a host transaction (30_encoding.md R97; the form
is the model's, log 1), the truncation of `SEND` and `READ`, and the fields of a payload (30_encoding.md R81, R83). -/

namespace Sys2Proof.Machine

/-- The natural number whose base-256 digits are the bytes, least significant first. DESIGN CHOICE (log 1). -/
def natOfBytes : List Byte → Nat
  | [] => 0
  | b :: bs => b.toNat + 256 * natOfBytes bs

/-- The base-256 digits of `n`, least significant first, at most `fuel` of them. -/
def bytesOfNatFuel : (fuel n : Nat) → List Byte
  | 0, _ => []
  | k + 1, n => if n = 0 then [] else BitVec.ofNat 8 n :: bytesOfNatFuel k (n / 256)

/-- The base-256 digits of `n`, least significant first, none for 0. -/
def bytesOfNat (n : Nat) : List Byte := bytesOfNatFuel n n

/-- The bytes `SEND` takes: the first `min(n, 248)` (43_link_host.md R163). -/
def sendTaken (buf : List Byte) : List Byte := buf.take Config.maxMsg

/-- How many bytes `READ(max)` returns: `min(incoming_len, max, 248)` (43_link_host.md R165). -/
def readCount (incomingLen : BitVec 8) (max : Nat) : Nat := min (min incomingLen.toNat max) Config.maxMsg

/-- `B` is in the range `BEGIN` accepts (00_scope.md R7). -/
def baudInRange (baud : Nat) : Bool := decide (Config.baudMin ≤ baud) && decide (baud ≤ Config.baudMax)

/-- `msg ++ [ack_seq, our_seq]`, what the CRC covers (30_encoding.md R83). -/
def payloadHead (msg : List Byte) (ackSeq ourSeq : Byte) : List Byte := msg ++ [ackSeq, ourSeq]

/-- A payload from its fields, the CRC high byte first (30_encoding.md R81, 20_memory.md R70 (a)). -/
def payloadOf (msg : List Byte) (ackSeq ourSeq : Byte) (crc : U16) : List Byte :=
  payloadHead msg ackSeq ourSeq ++ [crcHi crc, crcLo crc]

/-- The payload a sender builds (30_encoding.md R83). -/
def buildPayload (msg : List Byte) (ackSeq ourSeq : Byte) : List Byte :=
  payloadOf msg ackSeq ourSeq (crc16 (payloadHead msg ackSeq ourSeq))

/-- `d[i]` of a decoded payload; only indices below its length are used. -/
def payloadByte (d : List Byte) (i : Nat) : Byte := d.getD i 0

/-- `incoming_ack = d[L-4]` (30_encoding.md R83). -/
def payloadAck (d : List Byte) : Byte := payloadByte d (d.length - 4)

/-- `incoming_seq = d[L-3]` (30_encoding.md R83). -/
def payloadSeq (d : List Byte) : Byte := payloadByte d (d.length - 3)

/-- `received_crc = {d[L-2], d[L-1]}` (30_encoding.md R83). -/
def payloadCrc (d : List Byte) : U16 := payloadByte d (d.length - 2) ++ payloadByte d (d.length - 1)

/-- `message = d[0 .. L-5]` (30_encoding.md R83). -/
def payloadMsg (d : List Byte) : List Byte := d.take (d.length - 4)

/-- `computed_crc = CRC16(d[0 .. L-3])` (30_encoding.md R83, 41_crc.md R125). -/
def payloadComputedCrc (d : List Byte) : U16 := crc16 (d.take (d.length - 2))

end Sys2Proof.Machine
end

