-- ==== Sys2Proof/Machine/LinkRx.lean ====
section
/-! DEFINITION. The receive path of `TICK` (44_link_rx.md): `RX_DRAIN`, `RX_BYTE`, `RX_FRAME`, `ACK_HANDLING`, `EWMA_UPDATE`,
`DATA_HANDLING`. -/

namespace Sys2Proof.Machine

/-- `EWMA_ALPHA` in `StatReal` (00_scope.md R6). -/
def ewmaAlpha (a : Config.StatArith) : Config.StatReal := statOp a .div (statOfNat a 1) (statOfNat a Config.ewmaAlphaDivisor)

/-- One sample into an average: `avg + (1/100) * (sample - avg)`, in `StatReal` (44_link_rx.md R190; log 15). -/
def ewma (a : Config.StatArith) (avg : Config.StatReal) (sample : Nat) : Config.StatReal :=
  statOp a .add avg (statOp a .mul (ewmaAlpha a) (statOp a .sub (statOfNat a sample) avg))

/-- `EWMA_UPDATE(now)` (44_link_rx.md R190). -/
def ewmaUpdate (now : Time) (s : State) : State :=
  let totalSample := (now - s.outb.txStartTime).toNat
  let wireSample := s.outb.outgoingLen.toNat * s.cfg.usPerByte.toNat
  { s with stat := { s.stat with avgTotalTransmitTime := ewma s.params.statReal s.stat.avgTotalTransmitTime totalSample,
                                 avgWireTime := ewma s.params.statReal s.stat.avgWireTime wireSample } }

/-- The outbound message is acknowledged: averages, `tx_ok`, outbound state reset (44_link_rx.md R189). -/
def messageAcknowledged (now : Time) (s : State) : State :=
  let s1 := ewmaUpdate now s
  resetOutbound { s1 with stat := { s1.stat with txOk := countUp s1.params s1.stat.txOk } }

/-- `ACK_HANDLING(incoming_ack, now)` (44_link_rx.md R189): E4 when it acknowledges nothing (60_exceptions.md R253). -/
def ackHandling (incomingAck : Byte) (now : Time) (s : State) : State :=
  if 0 < s.outb.outgoingLen ∧ incomingAck = s.outb.ourSeq then messageAcknowledged now s else raiseError .ackForUnknown s

/-- A new message taken into the inbound stash (44_link_rx.md R191). -/
def acceptInbound (incomingSeq : Byte) (msg : List Byte) (s : State) : Except Fault State :=
  andThen (memWrite s .incoming 0 msg) fun s1 =>
    .ok { s1 with inb := { s1.inb with peerSeq := incomingSeq, incomingLen := BitVec.ofNat 8 msg.length } }

/-- `DATA_HANDLING(incoming_seq, d, L, now)` with `L` the length of `d` (44_link_rx.md R191). -/
def dataHandling (incomingSeq : Byte) (d : List Byte) (s : State) : Except Fault State :=
  if incomingSeq = s.inb.peerSeq then
    if 0 < s.inb.incomingLen then .ok s else .ok (setAckRequired s true)
  else acceptInbound incomingSeq (payloadMsg d) s

/-- Bookkeeping of a good frame: `rx_ok + 1`, `last_rx <- now` (44_link_rx.md R188). -/
def goodFrame (now : Time) (s : State) : State :=
  { s with stat := { s.stat with rxOk := countUp s.params s.stat.rxOk }, inb := { s.inb with lastRx := now } }

/-- What a decoded payload does: length check, CRC check, bookkeeping, acknowledgement, data, in this order
(44_link_rx.md R185 from its second line on, R186, R187). -/
def receivePayload (d : List Byte) (now : Time) (s : State) : Except Fault State :=
  if d.length < Config.hdrLen ∨ Config.maxPayload < d.length then .ok (raiseError .malformedFrame s)
  else if payloadComputedCrc d ≠ payloadCrc d then .ok (raiseError .crcMismatch s)
  else
    let s1 := ackHandling (payloadAck d) now (goodFrame now s)
    if Config.hdrLen < d.length then dataHandling (payloadSeq d) d s1 else .ok s1

/-- `RX_FRAME(n, now)`: decode `rx_buf[0 .. n-1]` in place, then act on the payload (44_link_rx.md R185, 40_cobs.md R104). -/
def rxFrame (n : Nat) (now : Time) (s : State) : Except Fault State :=
  andThen (memRead s .rx 0 n) fun raw =>
    andThen (memWrite s .rx 0 (cobsDec raw)) fun s1 => receivePayload (cobsDec raw) now s1

/-- `rx_wp <- v` (10_state.md R32). -/
def setRxWp (s : State) (v : BitVec 9) : State := { s with ptr := { s.ptr with rxWp := v } }

/-- `RX_BYTE(b, now)`: store one byte; a delimiter completes a frame; a full buffer wraps, E3 (44_link_rx.md R184). -/
def rxByte (b : Byte) (now : Time) (s : State) : Except Fault State :=
  andThen (memWrite s .rx s.ptr.rxWp.toNat [b]) fun s1 =>
    let wp := s1.ptr.rxWp + 1
    if b = Config.delim then rxFrame wp.toNat now (setRxWp s1 0)
    else if wp.toNat = Config.bufCap then .ok (raiseError .inboundOverflow s1)
    else .ok (setRxWp s1 wp)

/-- Bytes the transport holds or will have added: a bound on the drain loop (44_link_rx.md R181). -/
def drainBound (s : State) : Nat := s.env.rxFifo.length + (s.env.arrivals.map List.length).sum

/-- The drain loop: `while T.available() > 0`, asked anew before every byte (44_link_rx.md R181, D29). -/
def drainLoop (now : Time) : (fuel : Nat) → State → Except Fault State
  | 0, s => .ok s
  | fuel + 1, s =>
    let s1 := pollArrivals s
    match s1.env.rxFifo with
    | [] => .ok s1
    | b :: rest => andThen (rxByte b now (tReadLeaves s1 rest)) (drainLoop now fuel)

/-- `RX_DRAIN(now)` (44_link_rx.md R181). -/
def rxDrain (now : Time) (s : State) : Except Fault State := drainLoop now (drainBound s + 1) s

/-- The meaning of the internal step `RX_DRAIN` (44_link_rx.md R181). -/
def execRxDrain (now : Time) (s : State) : Host.Outcome State Fault Refusal := finish (rxDrain now s)

/-- The meaning of the internal step `RX_BYTE` (44_link_rx.md R184). -/
def execRxByte (b : Byte) (now : Time) (s : State) : Host.Outcome State Fault Refusal := finish (rxByte b now s)

/-- The meaning of the internal step `RX_FRAME` (44_link_rx.md R185). -/
def execRxFrame (n : Nat) (now : Time) (s : State) : Host.Outcome State Fault Refusal :=
  whenInForm (Instr.rxFrame n now).wf "RX_FRAME" (finish (rxFrame n now s))

/-- The meaning of the internal step `ACK_HANDLING` (44_link_rx.md R189). -/
def execAckHandling (incomingAck : Byte) (now : Time) (s : State) : Host.Outcome State Fault Refusal :=
  .next (ackHandling incomingAck now s)

/-- The meaning of the internal step `EWMA_UPDATE` (44_link_rx.md R190). -/
def execEwmaUpdate (now : Time) (s : State) : Host.Outcome State Fault Refusal := .next (ewmaUpdate now s)

/-- The meaning of the internal step `DATA_HANDLING`, which never looks at `now` (44_link_rx.md R191). -/
def execDataHandling (incomingSeq : Byte) (d : List Byte) (now : Time) (s : State) : Host.Outcome State Fault Refusal :=
  whenInForm (Instr.dataHandling incomingSeq d now).wf "DATA_HANDLING" (finish (dataHandling incomingSeq d s))

end Sys2Proof.Machine
end

