-- ==== Sys2Proof/Machine/Frames.lean ====
section
/-! DEFINITION. The four kinds of frame (30_encoding.md R82): the receiver's action on a decoded payload of that kind. `now` is the
sample of the current tick, which the clock extender's registers hold (42_clock.md R148, R188; log 21). -/

namespace Sys2Proof.Machine

/-- The receiver's action on a payload, at the time of the last clock sample (44_link_rx.md R185). -/
def receiveNow (d : List Byte) (s : State) : Host.Outcome State Fault Refusal :=
  finish (receivePayload d (clkTime s.clk) s)

/-- `FRAME.SHORT`: E1 (44_link_rx.md R186). -/
def execFrameShort (d : List Byte) (s : State) : Host.Outcome State Fault Refusal :=
  whenInForm (Instr.frameShort d).wf "FRAME.SHORT" (receiveNow d s)

/-- `FRAME.ACK_ONLY`: CRC check and acknowledgement handling (44_link_rx.md R187 to R189). -/
def execFrameAckOnly (ackSeq ourSeq : Byte) (crc : U16) (s : State) : Host.Outcome State Fault Refusal :=
  receiveNow (payloadOf [] ackSeq ourSeq crc) s

/-- `FRAME.DATA`: CRC check, acknowledgement handling, data handling (44_link_rx.md R187 to R191). -/
def execFrameData (msg : List Byte) (ackSeq ourSeq : Byte) (crc : U16) (s : State) : Host.Outcome State Fault Refusal :=
  whenInForm (Instr.frameData msg ackSeq ourSeq crc).wf "FRAME.DATA" (receiveNow (payloadOf msg ackSeq ourSeq crc) s)

/-- `FRAME.LONG`: E1 (44_link_rx.md R186). -/
def execFrameLong (d : List Byte) (s : State) : Host.Outcome State Fault Refusal :=
  whenInForm (Instr.frameLong d).wf "FRAME.LONG" (receiveNow d s)

end Sys2Proof.Machine
end

