-- ==== Sys2Proof/Machine/HostOps.lean ====
section
/-! DEFINITION. The host operations other than `TICK` (43_link_host.md): `BEGIN`, `CLEAR_TO_SEND`, `SEND`, `CLEAR_TO_READ`, `READ`,
`IS_OPEN`, `STATS`, and the internal step `AVG_RETRY_COUNT`. -/

namespace Sys2Proof.Machine

/-- The configuration derived from the baud rate, floor divisions of u64 values (00_scope.md R7). -/
def configFor (baud : Nat) : ConfigRegs :=
  let usPerByte := BitVec.ofNat 64 (1000000 / (baud / 10))
  let retryAbsMax := usPerByte * 100000
  { configured := true, usPerByte := usPerByte, retryAbsMax := retryAbsMax, keepaliveTxInterval := retryAbsMax / 4,
    keepaliveRxInterval := retryAbsMax / 2 }

/-- `BEGIN(B)` (43_link_host.md R160). -/
def execBegin (baud : Nat) (s : State) : Host.Outcome State Fault Refusal :=
  if s.cfg.configured then .refused .alreadyConfigured
  else if baudInRange baud then .next (respond (tBegin { s with cfg := configFor baud } baud) .none)
  else .refused (.baudOutOfRange baud)

/-- `CLEAR_TO_SEND()` (43_link_host.md R162). -/
def execClearToSend (s : State) : Host.Outcome State Fault Refusal :=
  whenConfigured s (.next (respond s (.bit (clearToSend s))))

/-- What an accepted `SEND` leaves, after its clock sample gave `now` (43_link_host.md R163). -/
def acceptMessage (buf : List Byte) (now : Time) (s : State) : Except Fault State :=
  andThen (memWrite s .outgoing 0 (sendTaken buf)) fun s1 =>
    .ok { s1 with outb := { s1.outb with outgoingLen := BitVec.ofNat 8 (sendTaken buf).length, ourSeq := s1.outb.ourSeq + 1,
                                         txStartTime := now } }

/-- `SEND(buf)` on a configured engine (43_link_host.md R163): E7 when the stash is occupied (60_exceptions.md R256). -/
def sendMessage (buf : List Byte) (s : State) : Except Fault State :=
  if clearToSend s then
    let (now, s1) := clkSample s
    acceptMessage buf now s1
  else .ok (raiseError .sendWhileBusy s)

/-- `SEND(buf)` (43_link_host.md R163). -/
def execSend (buf : List Byte) (s : State) : Host.Outcome State Fault Refusal :=
  whenConfigured s (finish (andThen (sendMessage buf s) fun s1 => .ok (respond s1 .none)))

/-- `CLEAR_TO_READ()` (43_link_host.md R164). -/
def execClearToRead (s : State) : Host.Outcome State Fault Refusal :=
  whenConfigured s (.next (respond s (.bit (clearToRead s))))

/-- What `READ` leaves of a held message: the stash cleared, its number committed to be acknowledged (43_link_host.md R165). -/
def releaseMessage (s : State) : State :=
  setAckRequired { s with inb := { s.inb with incomingLen := 0, ackSeq := s.inb.peerSeq } } true

/-- `READ(max)` on a configured engine (43_link_host.md R165): E8 when the stash is empty (60_exceptions.md R257). -/
def readMessage (max : Nat) (s : State) : Except Fault State :=
  if clearToRead s then
    let k := readCount s.inb.incomingLen max
    andThen (memRead s .incoming 0 k) fun dst => .ok (respond (releaseMessage s) (.bytesLen dst k))
  else .ok (respond (raiseError .readWhileEmpty s) (.bytesLen [] 0))

/-- `READ(max)` (43_link_host.md R165). -/
def execRead (max : Nat) (s : State) : Host.Outcome State Fault Refusal := whenConfigured s (finish (readMessage max s))

/-- `IS_OPEN()`: samples the clock, then compares (43_link_host.md R166; E6 is the answer false, 60_exceptions.md R255). -/
def execIsOpen (s : State) : Host.Outcome State Fault Refusal :=
  let (now, s1) := clkSample s
  whenConfigured s (.next (respond s1 (.bit (isOpenAt s1 now))))

/-- `AVG_RETRY_COUNT()`, the divisor a natural number, not wrapped, the quotient in `StatReal`; 0 when the divisor is 0
(43_link_host.md R173; log 15). -/
def avgRetryCount (a : Config.StatArith) (r : StatRegs) : Config.StatReal :=
  let d := r.txOk + r.txFail
  if d = 0 then 0 else statOp a .div (statOfNat a r.txTotalRetries) (statOfNat a d)

/-- The meaning of the internal step `AVG_RETRY_COUNT` (43_link_host.md R173). -/
def execAvgRetryCount (s : State) : Host.Outcome State Fault Refusal :=
  .next (respond s (.real (avgRetryCount s.params.statReal s.stat)))

/-- The snapshot of 30_encoding.md R90. -/
def statsSnapshot (a : Config.StatArith) (r : StatRegs) : StatsRecord :=
  { rxOk := r.rxOk, rxFail := r.rxFail, txOk := r.txOk, txFail := r.txFail, txTotalRetries := r.txTotalRetries,
    maxRetryIntervalIssued := r.maxRetryIntervalIssued, avgTotalTransmitTime := r.avgTotalTransmitTime,
    avgWireTime := r.avgWireTime, avgRetryCount := avgRetryCount a r }

/-- `STATS()` (43_link_host.md R172). -/
def execStats (s : State) : Host.Outcome State Fault Refusal :=
  whenConfigured s (.next (respond s (.stats (statsSnapshot s.params.statReal s.stat))))

end Sys2Proof.Machine
end

