-- ==== Sys2Proof/Machine/Reset.lean ====
section
/-! DEFINITION. The event `RESET` (70_reset_and_hazards.md R300). -/

namespace Sys2Proof.Machine

/-- Contents of one buffer after a reset: any bytes, from the free value `Config.resetBytes` (10_state.md R37; log 12). -/
def freeContents (k : Nat) (b : Buffer) : Memory := memWriteBytes [] 0 ((Config.resetBytes k).take (capacity b))

/-- Unspecified contents for all four buffers, fresh for the `n`-th reset (10_state.md R37; log 12). -/
def freeBuffers (n : Nat) : Buffers :=
  { outgoing := freeContents (4 * n) .outgoing, incoming := freeContents (4 * n + 1) .incoming,
    tx := freeContents (4 * n + 2) .tx, rx := freeContents (4 * n + 3) .rx }

/-- `RESET`: every register at the value of 10_state.md R47 for this instance's parameters, which stay, the buffers' contents
unspecified; neither the transport nor the clock is called and the FIFOs keep their bytes (70_reset_and_hazards.md R300). -/
def execReset (s : State) : Host.Outcome State Fault Refusal :=
  .next { State.resetWith s.params with
    buf := freeBuffers s.env.resets, env := { s.env with resets := s.env.resets + 1 }, host := s.host }

end Sys2Proof.Machine
end

