-- ==== Sys2Proof/Machine/LinkTx.lean ====
section
/-! DEFINITION. The transmit path of `TICK` (45_link_tx.md): `TX_SELECT` and its four branches, `LOAD_FRAME`, `BACKOFF`, `TX_PUSH`. -/

namespace Sys2Proof.Machine

/-- The frame for a message: its payload encoded, then the delimiter (30_encoding.md R80, 45_link_tx.md R220). -/
def frameBytes (msg : List Byte) (ackSeq ourSeq : Byte) : List Byte :=
  cobsEnc (buildPayload msg ackSeq ourSeq) ++ [Config.delim]

/-- `LOAD_FRAME(msg)` (45_link_tx.md R220). -/
def loadFrame (msg : List Byte) (s : State) : Except Fault State :=
  let frame := frameBytes msg s.inb.ackSeq s.outb.ourSeq
  andThen (memWrite s .tx 0 frame) fun s1 =>
    .ok { s1 with ptr := { s1.ptr with txLen := BitVec.ofNat 9 frame.length, txRp := 0 } }

/-- `6 * (tx_len + 1) * us_per_byte`, u64 (45_link_tx.md R222). -/
def backoffBase (txLen : BitVec 9) (usPerByte : Time) : Time :=
  BitVec.ofNat 64 Config.retryInitialMultiplier * (txLen.setWidth 64 + 1) * usPerByte

/-- The doubling loop: the cap is tested after a doubling, and reaching it leaves the loop (45_link_tx.md R222). -/
def backoffLoop (absMax : Time) : (n : Nat) → Time → Time
  | 0, t => t
  | n + 1, t =>
    let t2 := t * BitVec.ofNat 64 Config.retryBase
    if absMax < t2 then absMax else backoffLoop absMax n t2

/-- `BACKOFF(retry_count)` (45_link_tx.md R222). -/
def backoff (s : State) (retryCount : Nat) : Time :=
  backoffLoop s.cfg.retryAbsMax retryCount (backoffBase s.ptr.txLen s.cfg.usPerByte)

/-- `timeout <- BACKOFF(retry_count)` and the high-water mark (45_link_tx.md R211, R212, D21). -/
def armRetry (s : State) : State :=
  let t := backoff s s.outb.retryCount.toNat
  { s with outb := { s.outb with timeout := t },
           stat := { s.stat with maxRetryIntervalIssued :=
             if s.stat.maxRetryIntervalIssued < t then t else s.stat.maxRetryIntervalIssued } }

/-- `ack_required <- 0; last_tx_out <- now`, done by every loading of a frame (45_link_tx.md R211 to R214). -/
def frameLoaded (now : Time) (s : State) : State :=
  setAckRequired { s with outb := { s.outb with lastTxOut := now } } false

/-- Loads the data frame of the outbound stash, `outgoing_buf[0 .. outgoing_len-1]`, and arms the retry timer, with
`last_tx_time <- now` (45_link_tx.md R211, R212). -/
def loadDataFrame (now : Time) (s : State) : Except Fault State :=
  andThen (memRead s .outgoing 0 s.outb.outgoingLen.toNat) fun msg =>
    andThen (loadFrame msg { s with outb := { s.outb with lastTxTime := now } }) fun s1 =>
      .ok (armRetry (frameLoaded now s1))

/-- Branch 1, new data frame (45_link_tx.md R211). -/
def branchNewData (now : Time) (s : State) : Except Fault State := loadDataFrame now s

/-- Branch 2, retransmission or give-up, E5 (45_link_tx.md R212, 60_exceptions.md R254). -/
def branchRetransmit (now : Time) (s : State) : Except Fault State :=
  let s1 := { s with stat := { s.stat with txTotalRetries := countUp s.params s.stat.txTotalRetries },
                     outb := { s.outb with retryCount := s.outb.retryCount + 1 } }
  if Config.maxRetries < s1.outb.retryCount.toNat then .ok (raiseError .retransmissionExhausted s1)
  else loadDataFrame now s1

/-- Branch 3, ack-only frame (45_link_tx.md R213). -/
def branchAck (now : Time) (s : State) : Except Fault State :=
  andThen (loadFrame [] s) fun s1 => .ok (frameLoaded now s1)

/-- Branch 4, keepalive (45_link_tx.md R214). -/
def branchKeepalive (now : Time) (s : State) : Except Fault State :=
  andThen (loadFrame [] s) fun s1 => .ok (frameLoaded now s1)

/-- `TX_SELECT(now)`, its precondition `tx_len == 0` given: the first true condition in strict order (45_link_tx.md R210). -/
def txSelect (now : Time) (s : State) : Except Fault State :=
  if outboundPending s then branchNewData now s
  else if 0 < s.outb.outgoingLen ∧ retryExpired s now then branchRetransmit now s
  else if s.inb.ackRequired then branchAck now s
  else if keepaliveExpired s now then branchKeepalive now s
  else .ok s

/-- "When `tx_len != 0` none is tested" (45_link_tx.md R210). -/
def txSelectWhenEmpty (now : Time) (s : State) : Except Fault State :=
  if s.ptr.txLen = 0 then txSelect now s else .ok s

/-- What `TX_PUSH` leaves after handing over `k` bytes: the read pointer advanced, the buffer empty once its last byte has
gone (45_link_tx.md R224). -/
def advanceTx (k : Nat) (s : State) : State :=
  let rp := s.ptr.txRp + BitVec.ofNat 9 k
  if rp = s.ptr.txLen then { s with ptr := { s.ptr with txLen := 0, txRp := 0 } } else { s with ptr := { s.ptr with txRp := rp } }

/-- `TX_PUSH()` (45_link_tx.md R224): the room is asked once, before the first write (D28), and nothing else writes to the
transport meanwhile (20_memory.md R76; log 25). -/
def txPush (s : State) : Except Fault State :=
  if s.ptr.txLen = 0 then .ok s
  else
    let (space, s1) := tAvailableForWrite s
    let k := min space (s1.ptr.txLen.toNat - s1.ptr.txRp.toNat)
    andThen (memRead s1 .tx s1.ptr.txRp.toNat k) fun bs => .ok (advanceTx k (tWrite s1 bs))

/-- The meaning of the internal step `TX_SELECT` (45_link_tx.md R210). -/
def execTxSelect (now : Time) (s : State) : Host.Outcome State Fault Refusal := finish (txSelectWhenEmpty now s)

/-- The meaning of the internal step `LOAD_FRAME`; its precondition is `tx_len == 0` (45_link_tx.md R220; log 19). -/
def execLoadFrame (msg : List Byte) (s : State) : Host.Outcome State Fault Refusal :=
  whenInForm (Instr.loadFrame msg).wf "LOAD_FRAME"
    (if s.ptr.txLen = 0 then finish (loadFrame msg s) else .refused .txBufferOccupied)

/-- The meaning of the internal step `TX_PUSH` (45_link_tx.md R224). -/
def execTxPush (s : State) : Host.Outcome State Fault Refusal := finish (txPush s)

end Sys2Proof.Machine
end

