-- ==== Sys2Proof/Machine/Tick.lean ====
section
/-! DEFINITION. `TICK`, the one operation that moves bytes (44_link_rx.md R180). -/

namespace Sys2Proof.Machine

/-- The four phases in their order, once each: sample, drain, select, push (44_link_rx.md R180, 10_state.md R40 (b)). -/
def tickPhases (s : State) : Except Fault State :=
  let (now, s1) := clkSample s
  andThen (rxDrain now s1) fun s2 => andThen (txSelectWhenEmpty now s2) txPush

/-- `TICK()` (44_link_rx.md R180). -/
def execTick (s : State) : Host.Outcome State Fault Refusal :=
  whenConfigured s (finish (andThen (tickPhases s) fun t => .ok (respond t .none)))

end Sys2Proof.Machine
end

