-- ==== Sys2Proof/Machine/UnitOps.lean ====
section
/-! DEFINITION. The functional-unit operations offered to the host (30_encoding.md R96, codes 0x9 to 0xD) and the internal step
`CRC_STEP`. -/

namespace Sys2Proof.Machine

/-- `CRC16(s)` (41_crc.md R124). -/
def execCrc16 (bs : List Byte) (s : State) : Host.Outcome State Fault Refusal :=
  whenConfigured s (.next (respond s (.u16 (crc16 bs))))

/-- `COBS_ENC(in)` (40_cobs.md R100). -/
def execCobsEnc (input : List Byte) (s : State) : Host.Outcome State Fault Refusal :=
  whenConfigured s (.next (respond s (.bytes (cobsEnc input))))

/-- `COBS_DEC(in, n)` (40_cobs.md R103). -/
def execCobsDec (input : List Byte) (s : State) : Host.Outcome State Fault Refusal :=
  whenConfigured s (.next (respond s (.bytesLen (cobsDec input) (cobsDec input).length)))

/-- `CLK_SAMPLE()` (42_clock.md R141). -/
def execClkSample (s : State) : Host.Outcome State Fault Refusal :=
  let (now, s1) := clkSample s
  whenConfigured s (.next (respond s1 (.time now)))

/-- `BACKOFF(retry_count)` (45_link_tx.md R222). -/
def execBackoff (retryCount : Nat) (s : State) : Host.Outcome State Fault Refusal :=
  whenConfigured s (.next (respond s (.time (backoff s retryCount))))

/-- The meaning of the internal step `CRC_STEP` (41_crc.md R121). -/
def execCrcStep (crc : U16) (b : Byte) (s : State) : Host.Outcome State Fault Refusal :=
  .next (respond s (.u16 (crcStep crc b)))

end Sys2Proof.Machine
end

