-- ==== Sys2Proof/Machine/Dispatch.lean ====
section
/-! DEFINITION. One arm per constructor of `Instr`, in the order of spec/opcode_table.json. -/

namespace Sys2Proof.Machine

/-- What an operation does. -/
def exec (i : Instr) (s : State) : Host.Outcome State Fault Refusal :=
  match i with
  | .begin baud => Sys2Proof.Machine.execBegin baud s
  | .tick => Sys2Proof.Machine.execTick s
  | .send buf => Sys2Proof.Machine.execSend buf s
  | .read max => Sys2Proof.Machine.execRead max s
  | .isOpen => Sys2Proof.Machine.execIsOpen s
  | .clearToSend => Sys2Proof.Machine.execClearToSend s
  | .clearToRead => Sys2Proof.Machine.execClearToRead s
  | .stats => Sys2Proof.Machine.execStats s
  | .crc16 bs => Sys2Proof.Machine.execCrc16 bs s
  | .cobsEnc input => Sys2Proof.Machine.execCobsEnc input s
  | .cobsDec input => Sys2Proof.Machine.execCobsDec input s
  | .clkSample => Sys2Proof.Machine.execClkSample s
  | .backoff retryCount => Sys2Proof.Machine.execBackoff retryCount s
  | .avgRetryCount => Sys2Proof.Machine.execAvgRetryCount s
  | .crcStep crc b => Sys2Proof.Machine.execCrcStep crc b s
  | .rxDrain now => Sys2Proof.Machine.execRxDrain now s
  | .rxByte b now => Sys2Proof.Machine.execRxByte b now s
  | .rxFrame n now => Sys2Proof.Machine.execRxFrame n now s
  | .ackHandling incomingAck now => Sys2Proof.Machine.execAckHandling incomingAck now s
  | .ewmaUpdate now => Sys2Proof.Machine.execEwmaUpdate now s
  | .dataHandling incomingSeq d now => Sys2Proof.Machine.execDataHandling incomingSeq d now s
  | .txSelect now => Sys2Proof.Machine.execTxSelect now s
  | .loadFrame msg => Sys2Proof.Machine.execLoadFrame msg s
  | .txPush => Sys2Proof.Machine.execTxPush s
  | .reset => Sys2Proof.Machine.execReset s
  | .frameShort d => Sys2Proof.Machine.execFrameShort d s
  | .frameAckOnly ackSeq ourSeq crc => Sys2Proof.Machine.execFrameAckOnly ackSeq ourSeq crc s
  | .frameData msg ackSeq ourSeq crc => Sys2Proof.Machine.execFrameData msg ackSeq ourSeq crc s
  | .frameLong d => Sys2Proof.Machine.execFrameLong d s
  | .cobsDelim => Sys2Proof.Machine.execCobsDelim s
  | .cobsRun c => Sys2Proof.Machine.execCobsRun c s
  | .cobsFull => Sys2Proof.Machine.execCobsFull s

end Sys2Proof.Machine
end

