-- ==== Sys2Proof/Decode.lean ====
section
/-! DEFINITION. The three encodings of 30_encoding.md and their decoders: host command words (R96, R97), frames on the wire (R80 to
R82), COBS code bytes (R84). Then the encoder. The internal steps and `RESET` have no encoding (R96). -/

namespace Sys2Proof

/-- Which of the three encodings a byte sequence is read in. -/
inductive Space where
  /-- One host transaction: a command byte, then its operand bytes (30_encoding.md R96; log 1). -/
  | command
  /-- Bytes of the wire, up to and with the first delimiter (30_encoding.md R80, R86). -/
  | wire
  /-- One byte in code position of a COBS stream (30_encoding.md R84). -/
  | cobsCode
  deriving DecidableEq, Repr

/-- Why bytes are no instruction. -/
inductive Reject where
  /-- Nothing to read. -/
  | empty
  /-- Command code 0x0, 0xE or 0xF (30_encoding.md R96). -/
  | reservedCode (code : Byte)
  /-- A command byte whose bits 7 to 4 are not 0: the code has 4 bits (log 2). -/
  | codeTooWide (code : Byte)
  /-- Operand bytes after a command that takes none (log 2). -/
  | operandNotTaken (code : Byte)
  /-- No 0x00 among the bytes: no frame is complete (30_encoding.md R86). -/
  | noDelimiter
  deriving DecidableEq, Repr

/-- A command that takes no operand. -/
def noOperand (code : Byte) (operand : List Byte) (i : Instr) : Except Reject Instr :=
  if operand = [] then .ok i else .error (.operandNotTaken code)

/-- A command byte and its operand bytes (30_encoding.md R96, R97). -/
def decodeOperation (code : Byte) (operand : List Byte) : Except Reject Instr :=
  match code.toNat with
  | 0x0 => .error (.reservedCode code)
  | 0x1 => .ok (.begin (Machine.natOfBytes operand))
  | 0x2 => noOperand code operand .tick
  | 0x3 => .ok (.send operand)
  | 0x4 => .ok (.read (Machine.natOfBytes operand))
  | 0x5 => noOperand code operand .isOpen
  | 0x6 => noOperand code operand .clearToSend
  | 0x7 => noOperand code operand .clearToRead
  | 0x8 => noOperand code operand .stats
  | 0x9 => .ok (.crc16 operand)
  | 0xA => .ok (.cobsEnc operand)
  | 0xB => .ok (.cobsDec operand)
  | 0xC => noOperand code operand .clkSample
  | 0xD => .ok (.backoff (Machine.natOfBytes operand))
  | 0xE => .error (.reservedCode code)
  | 0xF => .error (.reservedCode code)
  | _ => .error (.codeTooWide code)

/-- One host transaction. -/
def decodeCommand : List Byte → Except Reject Instr
  | [] => .error .empty
  | code :: operand => decodeOperation code operand

/-- The kind of frame a decoded payload is: its length alone decides (30_encoding.md R82, R83). -/
def decodeFrame (d : List Byte) : Instr :=
  if d.length < Config.hdrLen then .frameShort d
  else if d.length = Config.hdrLen then .frameAckOnly (Machine.payloadAck d) (Machine.payloadSeq d) (Machine.payloadCrc d)
  else if d.length ≤ Config.maxPayload then
    .frameData (Machine.payloadMsg d) (Machine.payloadAck d) (Machine.payloadSeq d) (Machine.payloadCrc d)
  else .frameLong d

/-- The class of a byte in code position (30_encoding.md R84). -/
def decodeCobsCode (b : Byte) : Instr :=
  if b = 0x00#8 then .cobsDelim else if b = 0xFF#8 then .cobsFull else .cobsRun b

/-- The bytes before the first delimiter, and those after it (30_encoding.md R86). -/
def splitDelim : List Byte → Option (List Byte × List Byte)
  | [] => none
  | b :: bs =>
    if b = Config.delim then some ([], bs)
    else match splitDelim bs with
      | none => none
      | some (before, after) => some (b :: before, after)

/-- The instruction at the head of a byte sequence and the bytes after it. -/
def decode (sp : Space) (bs : List Byte) : Except Reject (Instr × List Byte) :=
  match sp with
  | .command =>
    match decodeCommand bs with
    | .ok i => .ok (i, [])
    | .error r => .error r
  | .wire =>
    match splitDelim bs with
    | some (before, after) => .ok (decodeFrame (Machine.cobsDec before), after)
    | none => .error .noDelimiter
  | .cobsCode =>
    match bs with
    | [] => .error .empty
    | b :: rest => .ok (decodeCobsCode b, rest)

/-- The encoding an instruction stands in; none for the internal steps and `RESET` (30_encoding.md R96). -/
def encodingSpace : Instr → Option Space
  | .begin _ => some .command
  | .tick => some .command
  | .send _ => some .command
  | .read _ => some .command
  | .isOpen => some .command
  | .clearToSend => some .command
  | .clearToRead => some .command
  | .stats => some .command
  | .crc16 _ => some .command
  | .cobsEnc _ => some .command
  | .cobsDec _ => some .command
  | .clkSample => some .command
  | .backoff _ => some .command
  | .avgRetryCount => none
  | .crcStep _ _ => none
  | .rxDrain _ => none
  | .rxByte _ _ => none
  | .rxFrame _ _ => none
  | .ackHandling _ _ => none
  | .ewmaUpdate _ => none
  | .dataHandling _ _ _ => none
  | .txSelect _ => none
  | .loadFrame _ => none
  | .txPush => none
  | .reset => none
  | .frameShort _ => some .wire
  | .frameAckOnly _ _ _ => some .wire
  | .frameData _ _ _ _ => some .wire
  | .frameLong _ => some .wire
  | .cobsDelim => some .cobsCode
  | .cobsRun _ => some .cobsCode
  | .cobsFull => some .cobsCode

/-- A payload on the wire: encoded, then one delimiter (30_encoding.md R80). -/
def encodeWire (payload : List Byte) : List Byte := Machine.cobsEnc payload ++ [Config.delim]

/-- The bytes of an instruction in its encoding; no byte for one that has none. -/
def encode : Instr → List Byte
  | .begin b => 0x01#8 :: Machine.bytesOfNat b
  | .tick => [0x02#8]
  | .send buf => 0x03#8 :: buf
  | .read max => 0x04#8 :: Machine.bytesOfNat max
  | .isOpen => [0x05#8]
  | .clearToSend => [0x06#8]
  | .clearToRead => [0x07#8]
  | .stats => [0x08#8]
  | .crc16 bs => 0x09#8 :: bs
  | .cobsEnc input => 0x0A#8 :: input
  | .cobsDec input => 0x0B#8 :: input
  | .clkSample => [0x0C#8]
  | .backoff k => 0x0D#8 :: Machine.bytesOfNat k
  | .avgRetryCount => []
  | .crcStep _ _ => []
  | .rxDrain _ => []
  | .rxByte _ _ => []
  | .rxFrame _ _ => []
  | .ackHandling _ _ => []
  | .ewmaUpdate _ => []
  | .dataHandling _ _ _ => []
  | .txSelect _ => []
  | .loadFrame _ => []
  | .txPush => []
  | .reset => []
  | .frameShort d => encodeWire d
  | .frameAckOnly a o c => encodeWire (Machine.payloadOf [] a o c)
  | .frameData msg a o c => encodeWire (Machine.payloadOf msg a o c)
  | .frameLong d => encodeWire d
  | .cobsDelim => [0x00#8]
  | .cobsRun c => [c]
  | .cobsFull => [0xFF#8]

/-- The `n` low bytes of a number, least significant first. -/
def wordBytes : (n w : Nat) → List Byte
  | 0, _ => []
  | n + 1, w => BitVec.ofNat 8 w :: wordBytes n (w / 256)

/-- The bytes of a word of the opcode table: `nbits` in whole bytes, the first word's least significant bits first. An operand of
zeros is an operand of no bytes: the number 0, the empty sequence (log 30). -/
def tableBytes (nbits w : Nat) : List Byte := wordBytes ((nbits + 7) / 8) w

/-- The encoding a word of the opcode table is read in: the table's command words are the codes 0x1 to 0xF with bits 7 to 4 zero, its
other words are code bytes (log 30). -/
def tableSpace (bs : List Byte) : Space :=
  match bs with
  | [] => .command
  | b :: _ => if 1 ≤ b.toNat ∧ b.toNat < 16 then .command else .cobsCode

/-- The instruction the decoder reads from a word of the opcode table. -/
def decodeTableWord (nbits w : Nat) : Option Instr :=
  match decode (tableSpace (tableBytes nbits w)) (tableBytes nbits w) with
  | .ok (i, _) => some i
  | .error _ => none

end Sys2Proof
end

