-- ==== Sys2Proof/Machine/Fetch.lean ====
section
/-! DEFINITION. What the engine does next: there is no program counter (10_state.md R40); the host's next transaction is the next
operation, the reset event comes before it when it is requested, and a decoder run one block at a time reads its next code byte. -/

namespace Sys2Proof.Machine

/-- What a step has to do. -/
inductive Fetched where
  /-- Run an instruction on a state. -/
  | run (i : Instr) (s : State)
  /-- No operation: the state is this one. -/
  | idle (s : State)
  /-- The transaction has no meaning. -/
  | reject (r : Refusal)
  deriving DecidableEq, Repr

/-- How a transaction the decoder rejects is refused. -/
def refusalOf : Reject → Refusal
  | .reservedCode code => .reservedCommand code
  | .empty => .malformedTransaction
  | .codeTooWide _ => .malformedTransaction
  | .operandNotTaken _ => .malformedTransaction
  | .noDelimiter => .malformedTransaction

/-- The host's next transaction, taken off the queue; with none the engine is idle (10_state.md R40 (a); log 4). -/
def fetchCommand (s : State) : Fetched :=
  match s.host.pending with
  | [] => .idle s
  | t :: ts =>
    match decode .command t with
    | .ok (i, _) => .run i { s with host := { s.host with pending := ts } }
    | .error r => .reject (refusalOf r)

/-- The decoder's next code byte; at the end of its input it stops (40_cobs.md R103; log 22). -/
def fetchCobsCode (s : State) : Fetched :=
  match decode .cobsCode s.cobs.input with
  | .ok (i, rest) => .run i { s with cobs := { s.cobs with input := rest } }
  | .error _ => .idle (cobsStop s.cobs.out s)

/-- The next thing to do: a requested reset, a code byte of an active decoder, a host transaction (log 4, 12, 22). -/
def fetch (s : State) : Fetched :=
  if s.host.resetRequest then .run .reset { s with host := { s.host with resetRequest := false } }
  else if s.cobs.active then fetchCobsCode s
  else fetchCommand s

/-- Places one word of the opcode table where the next step fetches it: a command as the host's next transaction, a code byte as
the decoder's whole input, with the selection that takes (log 30). -/
def placeTableWord (s : State) (nbits w : Nat) : State :=
  match tableSpace (tableBytes nbits w) with
  | .command =>
    { s with host := { s.host with pending := tableBytes nbits w :: s.host.pending, resetRequest := false },
             cobs := { s.cobs with active := false } }
  | _ =>
    { s with host := { s.host with resetRequest := false }, cobs := { s.cobs with active := true, input := tableBytes nbits w } }

end Sys2Proof.Machine
end

