-- ==== Sys2Proof/Machine/Step.lean ====
section
/-! DEFINITION. One step: one operation of the engine, atomic (00_scope.md R11). -/

namespace Sys2Proof.Machine

/-- Fetches what is to be done and does it. -/
def step (s : State) : Host.Outcome State Fault Refusal :=
  match fetch s with
  | .run i s' => exec i s'
  | .idle s' => .next s'
  | .reject r => .refused r

/-- The state whose very next step runs the instruction of a word of the opcode table (log 3, 30). -/
def State.withFetchWord (s : State) (nbits w : Nat) : State := placeTableWord s nbits w

end Sys2Proof.Machine
end

