-- ==== Sys2Proof/Safety.lean ====
section
/-! DEFINITION. What counts as a good state and a safe run, and the words the statements use for reading a buffer and for what an
operation leaves alone. -/

namespace Sys2Proof.Machine

/-! ## Reading a buffer -/

/-- Byte `a` of a buffer. -/
def byteAt (s : State) (b : Buffer) (a : Nat) : Byte := memReadByte (getBuf s b) a

/-- The first `n` bytes of a buffer. -/
def firstBytes (s : State) (b : Buffer) (n : Nat) : List Byte := memReadBytes (getBuf s b) 0 n

/-- Every byte of every buffer reads as before. -/
def BytesKept (s t : State) : Prop := ∀ b a, byteAt t b a = byteAt s b a

/-- Every byte of every buffer but the first `n` of `b` reads as before. -/
def BytesKeptBut (b : Buffer) (n : Nat) (s t : State) : Prop :=
  (∀ b' a, b' ≠ b → byteAt t b' a = byteAt s b' a) ∧ ∀ a, n ≤ a → byteAt t b a = byteAt s b a

/-- `t` holds `frame` whole in the transmit buffer, none of it handed over yet, and differs from `s` in that buffer's first bytes
and in `tx_len`, `tx_rp` only as far as buffers and pointers go (45_link_tx.md R220). -/
def LoadsFrame (frame : List Byte) (s t : State) : Prop :=
  t.ptr.txLen.toNat = frame.length ∧ t.ptr.txRp = 0 ∧ t.ptr.rxWp = s.ptr.rxWp ∧ firstBytes t .tx frame.length = frame ∧
  BytesKeptBut .tx frame.length s t

/-- The frame a sender makes of a message with its sequence numbers (30_encoding.md R80, R83). -/
def frameOf (msg : List Byte) (ackSeq ourSeq : Byte) : List Byte :=
  encodeWire (payloadOf msg ackSeq ourSeq (crc16 (msg ++ [ackSeq, ourSeq])))

/-- The parameters, every register and input of an engine but its pointers, its buffers and the groups a statement names itself. -/
def UnitsKept (s t : State) : Prop := t.params = s.params ∧ t.cfg = s.cfg ∧ t.clk = s.clk ∧ t.host = s.host ∧ t.cobs = s.cobs

/-! ## The invariant (10_state.md R41 to R46, and the ranges of R25, R26, R30, R32, R33) -/

/-- Every listed index is below `n`. -/
def memBelow (n : Nat) (m : Memory) : Bool := m.all fun c => decide (c.1 < n)

/-- "The transmit working buffer is either empty or contains exactly one complete frame being streamed out" (10_state.md R43). -/
def TxHoldsOneFrame (s : State) : Prop :=
  (s.ptr.txLen = 0 ∧ s.ptr.txRp = 0) ∨
  ∃ payload : List Byte, Config.hdrLen ≤ payload.length ∧ payload.length ≤ Config.maxPayload ∧
    s.ptr.txLen.toNat = (encodeWire payload).length ∧ firstBytes s .tx s.ptr.txLen.toNat = encodeWire payload ∧
    s.ptr.txRp < s.ptr.txLen

/-- Each event counter is `CNT_W` bits wide (10_state.md R33). -/
def CountersInRange (s : State) : Prop :=
  s.stat.rxOk < 2 ^ s.params.cntW ∧ s.stat.rxFail < 2 ^ s.params.cntW ∧ s.stat.txOk < 2 ^ s.params.cntW ∧
  s.stat.txFail < 2 ^ s.params.cntW ∧ s.stat.txTotalRetries < 2 ^ s.params.cntW

/-- What holds after reset and after every step. -/
structure Inv (s : State) : Prop where
  /-- Every buffer is in canonical form and lists no index at or beyond its capacity (20_memory.md R60). -/
  buffers : ∀ b, (getBuf s b).wf = true ∧ memBelow (capacity b) (getBuf s b) = true
  /-- `outgoing_len` is 0 to 248 (R25). -/
  outgoingRange : s.outb.outgoingLen.toNat ≤ Config.maxMsg
  /-- `incoming_len` is 0 to 248 (R30). -/
  incomingRange : s.inb.incomingLen.toNat ≤ Config.maxMsg
  /-- `retry_count` is 0 to 10 (R26). -/
  retryRange : s.outb.retryCount.toNat ≤ Config.maxRetries
  /-- R33. -/
  counters : CountersInRange s
  /-- R43. -/
  txFrame : TxHoldsOneFrame s
  /-- `rx_wp` is 0 to 255 (R32). -/
  rxWpRange : s.ptr.rxWp.toNat < Config.bufCap
  /-- `rx_buf[0 .. rx_wp-1]` holds no 0x00 (R46). -/
  rxNoZero : ∀ a, a < s.ptr.rxWp.toNat → byteAt s .rx a ≠ Config.delim
  /-- `incoming_len == 0` implies `ack_seq == peer_seq_awaiting_read` (R45). -/
  ackCommitted : s.inb.incomingLen = 0 → s.inb.ackSeq = s.inb.peerSeq
  /-- `outgoing_len == 0` implies `last_tx_time == 0` and `retry_count == 0` (R46). -/
  idleCleared : s.outb.outgoingLen = 0 → s.outb.lastTxTime = 0 ∧ s.outb.retryCount = 0
  /-- A configured engine holds the values of R21 for some legal baud rate. -/
  configuration : s.cfg.configured = true → ∃ baud, baudInRange baud = true ∧ s.cfg = configFor baud
  /-- `timeout` was recorded, and no recorded interval exceeds `retry_abs_max` (10_state.md R28, R33; 00_scope.md R7). -/
  timeoutRecorded : s.outb.timeout ≤ s.stat.maxRetryIntervalIssued
  /-- As above. -/
  intervalCapped : s.stat.maxRetryIntervalIssued ≤ s.cfg.retryAbsMax
  /-- Before `BEGIN` no interval has been issued. -/
  unissued : s.cfg.configured = false → s.stat.maxRetryIntervalIssued = 0

/-- Every timestamp register holds a time not after the last clock sample (42_clock.md R146). -/
def TimestampsPast (s : State) : Prop :=
  s.outb.lastTxTime ≤ clkTime s.clk ∧ s.outb.lastTxOut ≤ clkTime s.clk ∧ s.outb.txStartTime ≤ clkTime s.clk ∧
  s.inb.lastRx ≤ clkTime s.clk

/-! ## Safe runs -/

/-- A step does not fault: the only fault is an access beyond a buffer (20_memory.md R69). -/
def StepSafe (s : State) : Prop := ∀ f, step s ≠ .fault f

/-- A run of `RX_BYTE`s, one for each byte in order. -/
def receiveBytes (now : Time) : List Byte → State → Host.Outcome State Fault Refusal
  | [], s => .next s
  | b :: bs, s =>
    match exec (.rxByte b now) s with
    | .next t => receiveBytes now bs t
    | .fault f => .fault f
    | .refused r => .refused r

/-- An instruction is an operation of 30_encoding.md R96, that is, it has a command code. -/
def isOperation (i : Instr) : Bool := encodingSpace i == some .command

end Sys2Proof.Machine
end

