-- ==== Sys2Proof/Certificates/Slice0/Obligations.lean ====
section
/-! DEFINITION. The statements for the provers, one per definition, from the rules of spec/. `s` is any state, reached or not; where a
statement needs an invariant it says so as a premise. -/

open Sys2Proof Sys2Proof.Machine

/-! ## Encodings -/

/-- Decode and encode agree on every well-formed host command, every operand at every value (30_encoding.md R96, R97; the operand
bytes are the model's, log 1). -/
def Obligations.CommandRoundTrip : Prop :=
  ∀ i : Instr, i.wf = true → encodingSpace i = some .command → decode .command (encode i) = .ok (i, [])

/-- Decode and encode agree on every well-formed frame on the wire, whatever follows it (30_encoding.md R80 to R83). -/
def Obligations.WireFrameRoundTrip : Prop :=
  ∀ (i : Instr) (rest : List Byte), i.wf = true → encodingSpace i = some .wire → decode .wire (encode i ++ rest) = .ok (i, rest)

/-- Every byte in code position has one class, is its own encoding, and reads back (30_encoding.md R84). -/
def Obligations.CobsCodeRoundTrip : Prop :=
  (∀ (i : Instr) (rest : List Byte), i.wf = true → encodingSpace i = some .cobsCode →
    decode .cobsCode (encode i ++ rest) = .ok (i, rest)) ∧
  ∀ b : Byte, (decodeCobsCode b).wf = true ∧ encodingSpace (decodeCobsCode b) = some .cobsCode ∧ encode (decodeCobsCode b) = [b]

/-- A few words written out: command codes, code bytes and a frame from the spec's encodings (30_encoding.md R96, R84;
95_test_vectors.md T7). That a command is one byte holding its code, and `SEND`'s operand bytes after it, are the model's form, not the
spec's: how an operand reaches the hardware is not in the source (30_encoding.md R97; DESIGN CHOICE, log 1). -/
def Obligations.WrittenWordsDecode : Prop :=
  decode .command [0x02#8] = .ok (.tick, []) ∧
  decode .command [0x03#8, 0xAA#8, 0x00#8] = .ok (.send [0xAA#8, 0x00#8], []) ∧
  decode .command [0x08#8] = .ok (.stats, []) ∧
  decode .cobsCode [0xFF#8, 0x11#8] = .ok (.cobsFull, [0x11#8]) ∧
  decode .cobsCode [0x00#8] = .ok (.cobsDelim, []) ∧
  decode .cobsCode [0x05#8] = .ok (.cobsRun 0x05#8, []) ∧
  decode .wire [0x02#8, 0xAA#8, 0x02#8, 0xBB#8, 0x04#8, 0x0D#8, 0xA2#8, 0x65#8, 0x00#8] =
    .ok (.frameData [0xAA#8, 0x00#8, 0xBB#8] 0x00#8 0x0D#8 0xA265#16, [])

/-- The decoded length alone selects the kind of frame, every payload is of exactly one kind, and its fields put back together
are the payload (30_encoding.md R81, R82, R83). -/
def Obligations.LengthSelectsFrameKind : Prop :=
  ∀ d : List Byte,
    (d.length ≤ 3 → decodeFrame d = .frameShort d) ∧
    (d.length = 4 → ∃ a o c, decodeFrame d = .frameAckOnly a o c ∧ payloadOf [] a o c = d) ∧
    (5 ≤ d.length → d.length ≤ 252 →
      ∃ m a o c, decodeFrame d = .frameData m a o c ∧ m.length = d.length - 4 ∧ payloadOf m a o c = d) ∧
    (253 ≤ d.length → decodeFrame d = .frameLong d)

/-- Transactions outside the operation set are refused: the reserved command codes with any operand bytes (30_encoding.md R87, R96),
and, by the model's own form of a transaction (log 2), a code of more than 4 bits, operand bytes after a command that takes none,
and no byte at all. -/
def Obligations.ForeignTransactionsRefused : Prop :=
  ∀ (s : State) (t : List Byte) (ts : List (List Byte)),
    s.host.resetRequest = false → s.cobs.active = false → s.host.pending = t :: ts →
    (t = [] → step s = .refused .malformedTransaction) ∧
    ∀ (code : Byte) (operand : List Byte), t = code :: operand →
      (code = 0x00#8 ∨ code = 0x0E#8 ∨ code = 0x0F#8 → step s = .refused (.reservedCommand code)) ∧
      (16 ≤ code.toNat → step s = .refused .malformedTransaction) ∧
      (code ∈ [0x02#8, 0x05#8, 0x06#8, 0x07#8, 0x08#8, 0x0C#8] → operand ≠ [] → step s = .refused .malformedTransaction)

/-- An internal step, a frame kind or a code class with an operand outside the form of its row is refused (the refusal is the model's,
log 20); nothing else is outside its row's form but a baud rate, which `BEGIN` refuses itself. -/
def Obligations.OperandsOutOfFormRefused : Prop :=
  ∀ (s : State) (i : Instr), i.wf = false → (∀ baud, i ≠ .begin baud) → ∃ m, exec i s = .refused (.operandOutOfForm m)

/-! ## The COBS codec -/

/-- Round trip through the two operations: what `COBS_ENC` answers, with a delimiter after it, `COBS_DEC` answers back, with its
length (40_cobs.md R106). -/
def Obligations.CobsRoundTrip : Prop :=
  ∀ (s : State) (bs : List Byte), s.cfg.configured = true →
    ∃ out, exec (.cobsEnc bs) s = .next { s with host := { s.host with response := .bytes out } } ∧
      exec (.cobsDec (out ++ [0x00#8])) s = .next { s with host := { s.host with response := .bytesLen bs bs.length } } ∧
      (0x00#8 : Byte) ∉ out

/-- The length of the encoded result: its bounds, the exact value up to 253 bytes, and the exact value with no 0x00 in the input
(40_cobs.md R101). -/
def Obligations.CobsEncodedLength : Prop :=
  ∀ (s : State) (bs : List Byte), s.cfg.configured = true →
    ∃ out, exec (.cobsEnc bs) s = .next { s with host := { s.host with response := .bytes out } } ∧
      bs.length + 1 ≤ out.length ∧ out.length ≤ bs.length + 1 + bs.length / 254 ∧
      (bs.length ≤ 253 → out.length = bs.length + 1) ∧
      ((∀ b, b ∈ bs → b ≠ 0x00#8) → out.length = bs.length + 1 + bs.length / 254)

/-- The decoder answers on every input: at most `max(n - 1, 0)` bytes, and nothing from the first 0x00 on is looked at
(40_cobs.md R103, R105). -/
def Obligations.CobsDecodesAnyInput : Prop :=
  ∀ (s : State) (input : List Byte), s.cfg.configured = true →
    ∃ out, exec (.cobsDec input) s = .next { s with host := { s.host with response := .bytesLen out out.length } } ∧
      out.length ≤ input.length - 1 ∧
      ∀ before after, input = before ++ 0x00#8 :: after → exec (.cobsDec before) s = exec (.cobsDec input) s

/-- One code byte runs one block: `c - 1` data bytes are copied after the zero the previous block owes; a 0x00 or the end of the
input among them ends decoding with what was written; 0x00 in code position ends it at once (30_encoding.md R84, 40_cobs.md R103).
The working variables' place in State is the model's (log 22). -/
def Obligations.CodeByteRunsItsBlock : Prop :=
  ∀ (s : State) (c : Byte) (i : Instr), (i = .cobsRun c ∧ i.wf = true) ∨ (i = .cobsFull ∧ c = 0xFF#8) →
    (∀ data rest, s.cobs.input = data ++ rest → data.length = c.toNat - 1 → (0x00#8 : Byte) ∉ data →
      exec i s = .next { s with
        cobs := { active := s.cobs.active, input := rest, code := c,
                  out := s.cobs.out ++ (if s.cobs.code = 0xFF#8 then [] else [0x00#8]) ++ data } }) ∧
    (∀ data tail, s.cobs.input = data ++ tail → data.length < c.toNat - 1 → (0x00#8 : Byte) ∉ data →
      (tail = [] ∨ tail.head? = some 0x00#8) →
      exec i s = .next (cobsStop (s.cobs.out ++ (if s.cobs.code = 0xFF#8 then [] else [0x00#8]) ++ data) s)) ∧
    exec .cobsDelim s = .next { s with
      cobs := CobsUnit.initial
      host := { s.host with response := .bytesLen s.cobs.out s.cobs.out.length } }

/-- Running the code bytes one step at a time gives what `COBS_DEC` gives at once (40_cobs.md R103; the single steps are the
model's, log 22). -/
def Obligations.BlocksDecodeTheInput : Prop :=
  ∀ (s : State) (input : List Byte), s.host.resetRequest = false →
    s.cobs = { active := true, input := input, out := [], code := 0xFF#8 } →
    ∃ k, k ≤ input.length + 1 ∧ Host.Core.run Sys2Proof.core k s = .next { s with
      cobs := CobsUnit.initial
      host := { s.host with response := .bytesLen (cobsDec input) (cobsDec input).length } }

/-! ## The CRC -/

/-- The table step is the bit-serial step, for every register value and byte (41_crc.md R122), and it is what `CRC_STEP` answers. -/
def Obligations.CrcStepIsBitSerial : Prop :=
  ∀ (s : State) (crc : U16) (b : Byte), crcStep crc b = crcStepBitwise crc b ∧
    exec (.crcStep crc b) s = .next { s with host := { s.host with response := .u16 (crcStepBitwise crc b) } }

/-- `CRC16` answers the bit-serial CRC with seed 0xFFFF (41_crc.md R120, R122, R124). -/
def Obligations.CrcOfBlockIsBitSerial : Prop :=
  ∀ (s : State) (bs : List Byte), s.cfg.configured = true →
    exec (.crc16 bs) s = .next { s with host := { s.host with response := .u16 (bs.foldl crcStepBitwise 0xFFFF#16) } }

/-! ## The clock extender -/

/-- `CLK_SAMPLE`: one reading, a wrap counted exactly when it is less than the last one, the composed time answered, and nothing
else changed (42_clock.md R141, R142, R143). -/
def Obligations.ClockSampleExtends : Prop :=
  ∀ s : State, s.cfg.configured = true →
    ∃ now : Time, exec .clkSample s =
      .next { s with
        clk := { last := (readMicros s).1,
                 overflows := if (readMicros s).1 < s.clk.last then s.clk.overflows + 1 else s.clk.overflows }
        env := (readMicros s).2.env
        host := { s.host with response := .time now } } ∧
      now.toNat = (if (readMicros s).1 < s.clk.last then s.clk.overflows + 1 else s.clk.overflows).toNat * 2 ^ 32 +
        (readMicros s).1.toNat

/-- Two consecutive samples differ by the elapsed time modulo 2^32, so the time never decreases, unless the overflow counter itself
wraps (42_clock.md R144, R145, R146). -/
def Obligations.ClockAdvancesByElapsedTime : Prop :=
  ∀ s : State, s.cfg.configured = true → s.clk.overflows ≠ 0xFFFFFFFF#32 →
    ∃ t now, exec .clkSample s = .next t ∧ t.host.response = .time now ∧
      now.toNat = (clkTime s.clk).toNat + ((readMicros s).1 - s.clk.last).toNat

/-- Extended time never runs back over a step, barring a wrap of the overflow counter and a reset (42_clock.md R145, R146). -/
def Obligations.ClockNeverRunsBack : Prop :=
  ∀ s t : State, s.clk.overflows ≠ 0xFFFFFFFF#32 → s.host.resetRequest = false → step s = .next t → clkTime s.clk ≤ clkTime t.clk

/-- Every timestamp register holds 0 or an earlier sample: none is ahead of the clock at reset, and a step keeps it so, unless the
overflow counter wraps (42_clock.md R145, R146). -/
def Obligations.TimestampsStayPast : Prop :=
  TimestampsPast State.reset ∧
  ∀ s t : State, s.clk.overflows ≠ 0xFFFFFFFF#32 → TimestampsPast s → step s = .next t → TimestampsPast t

/-! ## Host operations -/

/-- `BEGIN(B)`: refused when configured, refused out of range, and otherwise the derived configuration, `T.begin(B)` and nothing
else (43_link_host.md R160). -/
def Obligations.BeginConfiguresOnce : Prop :=
  ∀ (s : State) (baud : Nat),
    (s.cfg.configured = true → exec (.begin baud) s = .refused .alreadyConfigured) ∧
    (s.cfg.configured = false → baud < 10 ∨ 10000000 < baud → exec (.begin baud) s = .refused (.baudOutOfRange baud)) ∧
    (s.cfg.configured = false → 10 ≤ baud → baud ≤ 10000000 →
      ∃ t, exec (.begin baud) s = .next t ∧ t.cfg.configured = true ∧
        t.cfg.usPerByte.toNat = 1000000 / (baud / 10) ∧
        t.cfg.retryAbsMax.toNat = 1000000 / (baud / 10) * 100000 ∧
        t.cfg.keepaliveTxInterval.toNat = 1000000 / (baud / 10) * 100000 / 4 ∧
        t.cfg.keepaliveRxInterval.toNat = 1000000 / (baud / 10) * 100000 / 2 ∧
        t = { s with cfg := t.cfg, env := { s.env with baud := some baud }, host := { s.host with response := .none } })

/-- Every operation but `BEGIN` is refused before `BEGIN`, and `BEGIN` after it (43_link_host.md R161). -/
def Obligations.OperationsNeedBegin : Prop :=
  (∀ (s : State) (i : Instr), isOperation i = true → (∀ baud, i ≠ .begin baud) → s.cfg.configured = false →
    exec i s = .refused .notConfigured) ∧
  ∀ (s : State) (baud : Nat), s.cfg.configured = true → exec (.begin baud) s = .refused .alreadyConfigured

/-- The two predicates and the snapshot answer from the registers, write nothing and sample no clock (43_link_host.md R162, R164,
R172, R173). The quotient in the snapshot is taken in the arithmetic of StatReal, whose form, exact rationals or any other, is the
model's (DESIGN CHOICE, log 15). -/
def Obligations.QueriesWriteNothing : Prop :=
  ∀ s : State, s.cfg.configured = true →
    exec .clearToSend s = .next { s with host := { s.host with response := .bit (decide (s.outb.outgoingLen = 0)) } } ∧
    exec .clearToRead s = .next { s with host := { s.host with response := .bit (decide (s.inb.incomingLen ≠ 0)) } } ∧
    exec .stats s = .next (respond s (.stats
      { rxOk := s.stat.rxOk, rxFail := s.stat.rxFail, txOk := s.stat.txOk, txFail := s.stat.txFail,
        txTotalRetries := s.stat.txTotalRetries, maxRetryIntervalIssued := s.stat.maxRetryIntervalIssued,
        avgTotalTransmitTime := s.stat.avgTotalTransmitTime, avgWireTime := s.stat.avgWireTime,
        avgRetryCount := if s.stat.txOk + s.stat.txFail = 0 then 0
          else statOp s.params.statReal .div (statOfNat s.params.statReal s.stat.txTotalRetries)
            (statOfNat s.params.statReal (s.stat.txOk + s.stat.txFail)) }))

/-- `AVG_RETRY_COUNT`: the quotient in the arithmetic of StatReal, 0 when nothing has completed, and the exact quotient where that
arithmetic is the default, exact rationals (43_link_host.md R173; the form of StatReal is the model's, DESIGN CHOICE, log 15). -/
def Obligations.AvgRetryCountIsQuotient : Prop :=
  ∀ s : State, ∃ q : Rat, exec .avgRetryCount s = .next { s with host := { s.host with response := .real q } } ∧
    (s.stat.txOk + s.stat.txFail = 0 → q = 0) ∧
    (s.stat.txOk + s.stat.txFail ≠ 0 →
      q = statOp s.params.statReal .div (statOfNat s.params.statReal s.stat.txTotalRetries)
        (statOfNat s.params.statReal (s.stat.txOk + s.stat.txFail)) ∧
      (s.params.statReal = .exact → q * ((s.stat.txOk + s.stat.txFail : Nat) : Rat) = (s.stat.txTotalRetries : Rat)))

/-- `IS_OPEN`: samples the clock and compares, at most the interval being open; nothing else changes (43_link_host.md R166,
60_exceptions.md R255). -/
def Obligations.IsOpenSamplesAndCompares : Prop :=
  ∀ s : State, s.cfg.configured = true →
    ∃ t now, exec (.clkSample) s = .next { t with host := { t.host with response := .time now } } ∧
      exec .isOpen s = .next t ∧
      t.host.response = .bit (decide ((now - s.inb.lastRx).toNat ≤ s.cfg.keepaliveRxInterval.toNat)) ∧
      t = { s with clk := t.clk, env := (readMicros s).2.env, host := { s.host with response := t.host.response } }

/-- `SEND(buf)`: with the stash empty the first 248 bytes are stored, `our_seq` advances by one modulo 256, the start time is the
sample of this operation, and nothing else changes; while busy it is a no-op, not even sampling the clock (43_link_host.md R163,
60_exceptions.md R256). -/
def Obligations.SendTakesMessageOrNothing : Prop :=
  ∀ (s : State) (buf : List Byte), s.cfg.configured = true →
    (s.outb.outgoingLen ≠ 0 → exec (.send buf) s = .next { s with host := { s.host with response := .none } }) ∧
    (s.outb.outgoingLen = 0 → s.buf.outgoing.wf = true → ∃ t, exec (.send buf) s = .next t ∧
      firstBytes t .outgoing (min buf.length 248) = buf.take 248 ∧ BytesKeptBut .outgoing (min buf.length 248) s t ∧
      t.outb.outgoingLen.toNat = min buf.length 248 ∧
      t.outb = { s.outb with outgoingLen := t.outb.outgoingLen, ourSeq := s.outb.ourSeq + 1, txStartTime := clkTime t.clk } ∧
      t.clk = clkAdvance s.clk (readMicros s).1 ∧ t.env = (readMicros s).2.env ∧
      t.host = { s.host with response := .none } ∧
      t.params = s.params ∧ t.cfg = s.cfg ∧ t.inb = s.inb ∧ t.ptr = s.ptr ∧ t.stat = s.stat ∧ t.cobs = s.cobs)

/-- `READ(max)`: of a held message the first `min(incoming_len, max, 248)` bytes are answered, the stash is cleared whole, its number
committed to be acknowledged; while empty no byte and the length 0 are answered and no register changes (43_link_host.md R165,
60_exceptions.md R257). -/
def Obligations.ReadDeliversMessageOrZero : Prop :=
  ∀ (s : State) (max : Nat), s.cfg.configured = true →
    (s.inb.incomingLen = 0 → exec (.read max) s = .next { s with host := { s.host with response := .bytesLen [] 0 } }) ∧
    (s.inb.incomingLen ≠ 0 → ∃ k, k = min (min s.inb.incomingLen.toNat max) 248 ∧
      exec (.read max) s = .next { s with
        inb := { s.inb with incomingLen := 0, ackSeq := s.inb.peerSeq, ackRequired := true }
        host := { s.host with response := .bytesLen (firstBytes s .incoming k) k } })

/-- `BACKOFF(k)`: for a legal configuration and frame length, the base interval for `k = 0`, doubled `k` times and capped at
`retry_abs_max` otherwise; never above the cap, never falling with `k`; nothing is written (45_link_tx.md R222). -/
def Obligations.BackoffDoublesToCap : Prop :=
  ∀ (s : State) (k : Nat), s.cfg.configured = true →
    ∃ v w, exec (.backoff k) s = .next { s with host := { s.host with response := .time v } } ∧
      exec (.backoff (k + 1)) s = .next { s with host := { s.host with response := .time w } } ∧
      ∀ baud, baudInRange baud = true → s.cfg = configFor baud → s.ptr.txLen.toNat ≤ 254 →
        (k = 0 → v.toNat = 6 * (s.ptr.txLen.toNat + 1) * s.cfg.usPerByte.toNat) ∧
        (1 ≤ k → v.toNat = min (6 * (s.ptr.txLen.toNat + 1) * s.cfg.usPerByte.toNat * 2 ^ k) s.cfg.retryAbsMax.toNat) ∧
        v ≤ s.cfg.retryAbsMax ∧ v ≤ w

/-! ## The receive path -/

/-- `RX_DRAIN` is the loop of its rule: what has arrived joins the FIFO, an empty FIFO ends it, and otherwise the oldest byte goes
through `RX_BYTE` and the loop goes on (44_link_rx.md R181; the list of arrivals is the model's, log 7). -/
def Obligations.DrainReadsByteByByte : Prop :=
  ∀ (s : State) (now : Time),
    ((pollArrivals s).env.rxFifo = [] → exec (.rxDrain now) s = .next (pollArrivals s)) ∧
    ∀ b rest, (pollArrivals s).env.rxFifo = b :: rest →
      (∀ t, exec (.rxByte b now) (tReadLeaves (pollArrivals s) rest) = .next t → exec (.rxDrain now) s = exec (.rxDrain now) t) ∧
      ∀ f, exec (.rxByte b now) (tReadLeaves (pollArrivals s) rest) = .fault f → exec (.rxDrain now) s = .fault f

/-- `RX_DRAIN` completes and leaves the inbound FIFO empty. Of the outbound half it writes nothing, or, when a frame it received
acknowledges the message (44_link_rx.md R189), `outgoing_len`, `last_tx_time` and `retry_count`, all three to 0; the bytes of the
outbound stash, the frame being sent and its two pointers, `our_seq`, `ack_seq`, the configuration, the clock and the host's side are
as before (44_link_rx.md R181). -/
def Obligations.DrainEmptiesTheFifo : Prop :=
  ∀ (s : State) (now : Time), s.ptr.rxWp.toNat < 256 →
    ∃ t, exec (.rxDrain now) s = .next t ∧ t.env.rxFifo = [] ∧
      t.env = { s.env with rxFifo := [], arrivals := t.env.arrivals } ∧
      t.ptr.rxWp.toNat < 256 ∧ t.ptr.txLen = s.ptr.txLen ∧ t.ptr.txRp = s.ptr.txRp ∧
      (t.outb = s.outb ∨ t.outb = { s.outb with outgoingLen := 0, lastTxTime := 0, retryCount := 0 }) ∧
      t.inb.ackSeq = s.inb.ackSeq ∧ UnitsKept s t ∧
      (∀ a, byteAt t .outgoing a = byteAt s .outgoing a) ∧ ∀ a, byteAt t .tx a = byteAt s .tx a

/-- `RX_BYTE` of a byte that is no delimiter: stored at `rx_wp`, which advances by one and wraps from 256 to 0; nothing is
counted (44_link_rx.md R184, 60_exceptions.md R252). -/
def Obligations.ReceivedByteIsStored : Prop :=
  ∀ (s : State) (b : Byte) (now : Time), b ≠ 0x00#8 → s.ptr.rxWp.toNat < 256 → s.buf.rx.wf = true →
    ∃ t, exec (.rxByte b now) s = .next t ∧
      byteAt t .rx s.ptr.rxWp.toNat = b ∧ (∀ a, a ≠ s.ptr.rxWp.toNat → byteAt t .rx a = byteAt s .rx a) ∧
      (∀ b' a, b' ≠ .rx → byteAt t b' a = byteAt s b' a) ∧
      t.ptr = { s.ptr with rxWp := if s.ptr.rxWp.toNat = 255 then 0 else s.ptr.rxWp + 1 } ∧
      t = { s with ptr := t.ptr, buf := t.buf }

/-- `RX_BYTE` of the delimiter: stored, `rx_wp` back to 0, and the bytes accumulated, the delimiter included, handled as a frame;
it completes (44_link_rx.md R184). -/
def Obligations.DelimiterCompletesFrame : Prop :=
  ∀ (s : State) (now : Time), s.ptr.rxWp.toNat < 256 → s.buf.rx.wf = true →
    ∃ s1 t, exec (.rxByte 0x00#8 now) s = .next t ∧ exec (.rxFrame (s.ptr.rxWp.toNat + 1) now) s1 = .next t ∧
      byteAt s1 .rx s.ptr.rxWp.toNat = 0x00#8 ∧ (∀ a, a ≠ s.ptr.rxWp.toNat → byteAt s1 .rx a = byteAt s .rx a) ∧
      (∀ b' a, b' ≠ .rx → byteAt s1 b' a = byteAt s b' a) ∧
      s1 = { s with ptr := { s.ptr with rxWp := 0 }, buf := s1.buf }

/-- Whatever bytes come, the receiver is back in step at the next delimiter: nothing is left accumulated (30_encoding.md R86). -/
def Obligations.DelimiterResynchronises : Prop :=
  ∀ (s : State) (now : Time) (bs : List Byte), s.ptr.rxWp.toNat < 256 → s.buf.rx.wf = true →
    ∃ t, receiveBytes now (bs ++ [0x00#8]) s = .next t ∧ t.ptr.rxWp = 0 ∧ t.buf.rx.wf = true

/-- `RX_FRAME(n, now)`: the decoding of `rx_buf[0 .. n-1]` overwrites its start and nothing else, then the payload has the effect of
its kind of frame; it completes (44_link_rx.md R185, 40_cobs.md R104). The frame kinds take `now` from the clock registers (log 21). -/
def Obligations.FrameIsDecodedInPlace : Prop :=
  ∀ (s : State) (n : Nat) (now : Time), 1 ≤ n → n ≤ 256 → s.buf.rx.wf = true →
    ∃ s1 t, exec (.rxFrame n now) s = .next t ∧
      firstBytes s1 .rx (cobsDec (firstBytes s .rx n)).length = cobsDec (firstBytes s .rx n) ∧
      BytesKeptBut .rx (cobsDec (firstBytes s .rx n)).length s s1 ∧ s1 = { s with buf := s1.buf } ∧
      (clkTime s.clk = now → exec (decodeFrame (cobsDec (firstBytes s .rx n))) s1 = .next t)

/-- A decoded length below 4 or above 252 counts one `rx_fail`, modulo 2^`CNT_W`, and changes nothing else (44_link_rx.md R186,
60_exceptions.md R250, 10_state.md R33). -/
def Obligations.WrongLengthFrameDiscarded : Prop :=
  ∀ (s : State) (d : List Byte),
    (d.length < 4 → exec (.frameShort d) s =
      .next { s with stat := { s.stat with rxFail := (s.stat.rxFail + 1) % 2 ^ s.params.cntW } }) ∧
    (252 < d.length → exec (.frameLong d) s =
      .next { s with stat := { s.stat with rxFail := (s.stat.rxFail + 1) % 2 ^ s.params.cntW } })

/-- A CRC mismatch counts one `rx_fail`, modulo 2^`CNT_W`, and changes nothing else (44_link_rx.md R187, 60_exceptions.md R251,
10_state.md R33). -/
def Obligations.BadCrcFrameDiscarded : Prop :=
  ∀ (s : State) (msg : List Byte) (a o : Byte) (c : U16), c ≠ crc16 (msg ++ [a, o]) →
    (msg = [] → exec (.frameAckOnly a o c) s =
      .next { s with stat := { s.stat with rxFail := (s.stat.rxFail + 1) % 2 ^ s.params.cntW } }) ∧
    (1 ≤ msg.length → msg.length ≤ 248 →
      exec (.frameData msg a o c) s = .next { s with stat := { s.stat with rxFail := (s.stat.rxFail + 1) % 2 ^ s.params.cntW } })

/-- A good frame: `rx_ok + 1` and `last_rx <- now`, then acknowledgement handling, then, if it carries a message, data handling, in
this order (44_link_rx.md R185, R188; `now` of a frame kind is the model's, log 21). -/
def Obligations.GoodFrameIsProcessedInOrder : Prop :=
  ∀ (s : State) (msg : List Byte) (a o : Byte),
    ∃ u, exec (.ackHandling a (clkTime s.clk))
        { s with stat := { s.stat with rxOk := (s.stat.rxOk + 1) % 2 ^ s.params.cntW }, inb := { s.inb with lastRx := clkTime s.clk } } = .next u ∧
      (msg = [] → exec (.frameAckOnly a o (crc16 [a, o])) s = .next u) ∧
      (1 ≤ msg.length → msg.length ≤ 248 →
        ∃ t, exec (.dataHandling o (payloadOf msg a o (crc16 (msg ++ [a, o]))) (clkTime s.clk)) u = .next t ∧
          exec (.frameData msg a o (crc16 (msg ++ [a, o]))) s = .next t)

/-- A good data frame that comes again at once only counts once more: the message is not taken twice, nothing is acknowledged twice
(44_link_rx.md R189, R191 (f); `now` of a frame kind is the model's, log 21). -/
def Obligations.RepeatedFrameOnlyCounts : Prop :=
  ∀ (s : State) (msg : List Byte) (a o : Byte), 1 ≤ msg.length → msg.length ≤ 248 →
    ∃ t, exec (.frameData msg a o (crc16 (msg ++ [a, o]))) s = .next t ∧ t.inb.peerSeq = o ∧
      exec (.frameData msg a o (crc16 (msg ++ [a, o]))) t =
        .next { t with stat := { t.stat with rxOk := (t.stat.rxOk + 1) % 2 ^ s.params.cntW } }

/-- `ACK_HANDLING`: with a message pending and its number acknowledged, one sample into each average, `tx_ok + 1`, the outbound state
reset; otherwise nothing (44_link_rx.md R189, R190, 60_exceptions.md R253). -/
def Obligations.AcknowledgementEndsMessage : Prop :=
  ∀ (s : State) (a : Byte) (now : Time),
    (s.outb.outgoingLen ≠ 0 → a = s.outb.ourSeq → ∃ u, exec (.ewmaUpdate now) s = .next u ∧
      exec (.ackHandling a now) s = .next { s with
        outb := { s.outb with outgoingLen := 0, lastTxTime := 0, retryCount := 0 }
        stat := { u.stat with txOk := (s.stat.txOk + 1) % 2 ^ s.params.cntW } }) ∧
    (s.outb.outgoingLen = 0 ∨ a ≠ s.outb.ourSeq → exec (.ackHandling a now) s = .next s)

/-- `EWMA_UPDATE`: one sample into each average by the formula of its rule in the arithmetic of StatReal; where that arithmetic is the
default, exact rationals, each average moves by 1/100 of its distance from its sample; nothing else changes (44_link_rx.md R190; the
form of StatReal is the model's, DESIGN CHOICE, log 15). -/
def Obligations.AveragesTakeOneSample : Prop :=
  ∀ (s : State) (now : Time) (a : Config.StatArith) (total wire : Nat), a = s.params.statReal →
    total = (now - s.outb.txStartTime).toNat → wire = s.outb.outgoingLen.toNat * s.cfg.usPerByte.toNat →
    ∃ x y alpha, exec (.ewmaUpdate now) s = .next { s with stat := { s.stat with avgTotalTransmitTime := x, avgWireTime := y } } ∧
      alpha = statOp a .div (statOfNat a 1) (statOfNat a 100) ∧
      x = statOp a .add s.stat.avgTotalTransmitTime
        (statOp a .mul alpha (statOp a .sub (statOfNat a total) s.stat.avgTotalTransmitTime)) ∧
      y = statOp a .add s.stat.avgWireTime (statOp a .mul alpha (statOp a .sub (statOfNat a wire) s.stat.avgWireTime)) ∧
      (a = .exact → 100 * (x - s.stat.avgTotalTransmitTime) = (total : Rat) - s.stat.avgTotalTransmitTime ∧
        100 * (y - s.stat.avgWireTime) = (wire : Rat) - s.stat.avgWireTime)

/-- `DATA_HANDLING`: a repeated number is nothing while the message is held and asks for an acknowledgement after it was read; any
other number is taken as new, held or not (44_link_rx.md R191, 45_link_tx.md R227). -/
def Obligations.DataHandlingThreeWays : Prop :=
  ∀ (s : State) (q : Byte) (d : List Byte) (now : Time), 5 ≤ d.length → d.length ≤ 252 →
    (q = s.inb.peerSeq → s.inb.incomingLen ≠ 0 → exec (.dataHandling q d now) s = .next s) ∧
    (q = s.inb.peerSeq → s.inb.incomingLen = 0 →
      exec (.dataHandling q d now) s = .next { s with inb := { s.inb with ackRequired := true } }) ∧
    (q ≠ s.inb.peerSeq → s.buf.incoming.wf = true → ∃ t, exec (.dataHandling q d now) s = .next t ∧
      firstBytes t .incoming (d.length - 4) = d.take (d.length - 4) ∧ BytesKeptBut .incoming (d.length - 4) s t ∧
      t.inb.incomingLen.toNat = d.length - 4 ∧
      t = { s with inb := { s.inb with peerSeq := q, incomingLen := t.inb.incomingLen }, buf := t.buf })

/-! ## The transmit path -/

/-- Branch 1: a new message is loaded with the current `ack_seq` and `our_seq`, `ack_required` cleared, the timestamps set, the retry
timer armed with the backoff of the loaded frame and recorded (45_link_tx.md R211). -/
def Obligations.NewMessageIsLoaded : Prop :=
  ∀ (s : State) (now : Time), s.ptr.txLen = 0 → s.buf.tx.wf = true → s.outb.outgoingLen ≠ 0 →
    s.outb.outgoingLen.toNat ≤ 248 → s.outb.lastTxTime = 0 →
    ∃ t, exec (.txSelect now) s = .next t ∧
      LoadsFrame (frameOf (firstBytes s .outgoing s.outb.outgoingLen.toNat) s.inb.ackSeq s.outb.ourSeq) s t ∧
      t.outb = { s.outb with lastTxTime := now, lastTxOut := now, timeout := backoff t s.outb.retryCount.toNat } ∧
      t.inb = { s.inb with ackRequired := false } ∧
      t.stat.maxRetryIntervalIssued.toNat = max s.stat.maxRetryIntervalIssued.toNat t.outb.timeout.toNat ∧
      t.stat = { s.stat with maxRetryIntervalIssued := t.stat.maxRetryIntervalIssued } ∧ t.env = s.env ∧ UnitsKept s t

/-- Branch 2: a timed out message is counted and, up to the tenth retry, re-encoded with the numbers of the moment and timed anew; at
the next timeout it is abandoned, nothing is loaded, an owed acknowledgement stays owed (45_link_tx.md R212, 60_exceptions.md
R254). -/
def Obligations.TimeoutRetransmitsOrGivesUp : Prop :=
  ∀ (s : State) (now : Time), s.ptr.txLen = 0 → s.outb.outgoingLen ≠ 0 → s.outb.lastTxTime ≠ 0 →
    s.outb.timeout < now - s.outb.lastTxTime →
    (s.outb.retryCount.toNat < 10 → s.buf.tx.wf = true → s.outb.outgoingLen.toNat ≤ 248 → ∃ t, exec (.txSelect now) s = .next t ∧
      LoadsFrame (frameOf (firstBytes s .outgoing s.outb.outgoingLen.toNat) s.inb.ackSeq s.outb.ourSeq) s t ∧
      t.outb = { s.outb with retryCount := s.outb.retryCount + 1, lastTxTime := now, lastTxOut := now,
                             timeout := backoff t (s.outb.retryCount.toNat + 1) } ∧
      t.inb = { s.inb with ackRequired := false } ∧
      t.stat.maxRetryIntervalIssued.toNat = max s.stat.maxRetryIntervalIssued.toNat t.outb.timeout.toNat ∧
      t.stat = { s.stat with txTotalRetries := (s.stat.txTotalRetries + 1) % 2 ^ s.params.cntW,
                             maxRetryIntervalIssued := t.stat.maxRetryIntervalIssued } ∧ t.env = s.env ∧ UnitsKept s t) ∧
    (s.outb.retryCount.toNat = 10 → exec (.txSelect now) s = .next { s with
      outb := { s.outb with outgoingLen := 0, lastTxTime := 0, retryCount := 0 }
      stat := { s.stat with txFail := (s.stat.txFail + 1) % 2 ^ s.params.cntW,
                            txTotalRetries := (s.stat.txTotalRetries + 1) % 2 ^ s.params.cntW } })

/-- Branches 3 and 4: with no message new or timed out, an owed acknowledgement or an expired keepalive loads an ack-only frame
(45_link_tx.md R213, R214). -/
def Obligations.AckOrKeepaliveIsLoaded : Prop :=
  ∀ (s : State) (now : Time), s.ptr.txLen = 0 → s.buf.tx.wf = true →
    (s.outb.outgoingLen = 0 ∨ (s.outb.lastTxTime ≠ 0 ∧ now - s.outb.lastTxTime ≤ s.outb.timeout)) →
    (s.inb.ackRequired = true ∨ s.cfg.keepaliveTxInterval < now - s.outb.lastTxOut) →
    ∃ t, exec (.txSelect now) s = .next t ∧ LoadsFrame (frameOf [] s.inb.ackSeq s.outb.ourSeq) s t ∧ t.ptr.txLen = 6 ∧
      t.outb = { s.outb with lastTxOut := now } ∧ t.inb = { s.inb with ackRequired := false } ∧
      t.stat = s.stat ∧ t.env = s.env ∧ UnitsKept s t

/-- Nothing is loaded when nothing is due, and none of the four conditions is tested while a frame is being sent
(45_link_tx.md R210). -/
def Obligations.NothingDueNothingLoaded : Prop :=
  ∀ (s : State) (now : Time),
    (s.ptr.txLen ≠ 0 → exec (.txSelect now) s = .next s) ∧
    ((s.outb.outgoingLen = 0 ∨ (s.outb.lastTxTime ≠ 0 ∧ now - s.outb.lastTxTime ≤ s.outb.timeout)) →
      s.inb.ackRequired = false → now - s.outb.lastTxOut ≤ s.cfg.keepaliveTxInterval → exec (.txSelect now) s = .next s)

/-- `LOAD_FRAME(msg)`: the frame of `msg.length + 6` bytes stands in `tx_buf`, the encoding of the payload and a delimiter, whose only
0x00 is that last byte; a receiver decodes it to the message, the two numbers and the CRC over them; nothing else changes
(45_link_tx.md R220). -/
def Obligations.LoadedFrameCarriesPayload : Prop :=
  ∀ (s : State) (msg : List Byte), msg.length ≤ 248 → s.ptr.txLen = 0 → s.buf.tx.wf = true →
    ∃ t p c, p = msg ++ [s.inb.ackSeq, s.outb.ourSeq] ∧ c = crc16 p ∧ exec (.loadFrame msg) s = .next t ∧
      t.ptr.txLen.toNat = msg.length + 6 ∧ t.ptr.txRp = 0 ∧
      firstBytes t .tx (msg.length + 6) = cobsEnc (p ++ [crcHi c, crcLo c]) ++ [0x00#8] ∧
      (∀ a, a < msg.length + 5 → byteAt t .tx a ≠ 0x00#8) ∧
      cobsDec (firstBytes t .tx (msg.length + 6)) = p ++ [crcHi c, crcLo c] ∧
      BytesKeptBut .tx (msg.length + 6) s t ∧
      t = { s with ptr := { s.ptr with txLen := t.ptr.txLen, txRp := 0 }, buf := t.buf }

/-- `LOAD_FRAME` on its own while a frame is being sent is refused: the frame is never overwritten (10_state.md R43; the refusal is
the model's, log 19). -/
def Obligations.LoadFrameNeedsEmptyBuffer : Prop :=
  ∀ (s : State) (msg : List Byte), msg.length ≤ 248 → s.ptr.txLen ≠ 0 → exec (.loadFrame msg) s = .refused .txBufferOccupied

/-- `TX_PUSH`: as many bytes from `tx_rp` on as the transport has room for, in order, and the buffer empty once its last byte has
gone; with an empty buffer nothing, not even the question (45_link_tx.md R224). -/
def Obligations.PushHandsOverInOrder : Prop :=
  ∀ s : State,
    (s.ptr.txLen = 0 → exec .txPush s = .next s) ∧
    (s.ptr.txLen ≠ 0 → s.ptr.txRp.toNat ≤ s.ptr.txLen.toNat → s.ptr.txLen.toNat ≤ 256 →
      ∃ k, k = min (tAvailableForWrite s).1 (s.ptr.txLen.toNat - s.ptr.txRp.toNat) ∧
        exec .txPush s = .next { s with
          env := { (tAvailableForWrite s).2.env with
                   txFifo := s.env.txFifo ++ (List.range k).map fun j => byteAt s .tx (s.ptr.txRp.toNat + j) }
          ptr := if s.ptr.txRp.toNat + k = s.ptr.txLen.toNat then { s.ptr with txLen := 0, txRp := 0 }
                 else { s.ptr with txRp := BitVec.ofNat 9 (s.ptr.txRp.toNat + k) } })

/-- `TICK` is its four phases in order, once each, at the one time it samples; it completes in every state of the invariant
(44_link_rx.md R180, 42_clock.md R148). -/
def Obligations.TickRunsItsPhases : Prop :=
  ∀ s : State, s.cfg.configured = true → Inv s →
    ∃ s0 u v w, s0 = { s with clk := clkAdvance s.clk (readMicros s).1, env := (readMicros s).2.env } ∧
      exec (.rxDrain (clkTime s0.clk)) s0 = .next u ∧ exec (.txSelect (clkTime s0.clk)) u = .next v ∧
      exec .txPush v = .next w ∧ exec .tick s = .next { w with host := { s.host with response := .none } }

/-! ## The whole machine -/

/-- A step runs the decoded instruction: the host's next transaction, a requested reset before it, a code byte of an active
decoder before it (10_state.md R40; the order of the three is the model's, log 4, 12, 22). -/
def Obligations.StepRunsDecodedInstruction : Prop :=
  ∀ s : State,
    (∀ t ts i, s.host.resetRequest = false → s.cobs.active = false → s.host.pending = t :: ts →
      decode .command t = .ok (i, []) → i.wf = true → step s = exec i { s with host := { s.host with pending := ts } }) ∧
    (∀ b rest, s.host.resetRequest = false → s.cobs.active = true → s.cobs.input = b :: rest →
      step s = exec (decodeCobsCode b) { s with cobs := { s.cobs with input := rest } }) ∧
    (s.host.resetRequest = true → step s = exec .reset { s with host := { s.host with resetRequest := false } })

/-- Between operations the engine does nothing (10_state.md R40 (a), 60_exceptions.md R263; an idle step is the model's, log 4). -/
def Obligations.IdleEngineChangesNothing : Prop :=
  ∀ s : State, s.host.resetRequest = false → s.cobs.active = false → s.host.pending = [] → step s = .next s

/-- The state after reset, for an instance with any parameters, holds the values of the reset table, and the CRC table its constant
(10_state.md R47); the machine's own reset state is that of the default parameters 12, 32 and exact rationals (00_scope.md R8; that the
defaults are taken there is the model's, log 13, 14, 15). -/
def Obligations.ResetStateHoldsTable : Prop :=
  (∀ p : Config.Params, p.ourSeqInit ≠ 0 ∧ 1 ≤ p.cntW ∧ (State.resetWith p).params = p ∧
    (State.resetWith p).cfg.configured = false ∧
    (State.resetWith p).outb = { ourSeq := p.ourSeqInit, outgoingLen := 0, retryCount := 0, lastTxTime := 0, timeout := 0,
                                 txStartTime := 0, lastTxOut := 0 } ∧
    (State.resetWith p).inb = { ackSeq := 0, peerSeq := 0, incomingLen := 0, ackRequired := false, lastRx := 0 } ∧
    (State.resetWith p).ptr = { txLen := 0, txRp := 0, rxWp := 0 } ∧
    (State.resetWith p).stat = { rxOk := 0, rxFail := 0, txOk := 0, txFail := 0, txTotalRetries := 0, maxRetryIntervalIssued := 0,
                                 avgTotalTransmitTime := 0, avgWireTime := 0 } ∧
    (State.resetWith p).clk = { last := 0, overflows := 0 }) ∧
  (∃ p : Config.Params, State.reset = State.resetWith p ∧ p.ourSeqInit = 12 ∧ p.cntW = 32 ∧ p.statReal = .exact) ∧
  ∀ i : Byte, crcTableAt i = crcStepBitwise 0 i

/-- The event `RESET`, from any state: the registers of the reset table for the instance's own parameters, which stay, the transport's FIFOs and the host's side untouched, the
buffers any contents of their size (70_reset_and_hazards.md R300; the free contents are the model's, log 12). -/
def Obligations.ResetEventFromAnyState : Prop :=
  ∀ s : State, ∃ t, exec .reset s = .next t ∧ t.params = s.params ∧ t.cfg.configured = false ∧
    t.outb = (State.resetWith s.params).outb ∧ t.outb.ourSeq = s.params.ourSeqInit ∧ t.inb = (State.resetWith s.params).inb ∧
    t.ptr = (State.resetWith s.params).ptr ∧ t.stat = (State.resetWith s.params).stat ∧ t.clk = (State.resetWith s.params).clk ∧
    t.env = { s.env with resets := s.env.resets + 1 } ∧ t.host = s.host ∧
    ∀ b, (getBuf t b).wf = true ∧ memBelow (capacity b) (getBuf t b) = true

/-- The invariant holds after reset, for an instance with any parameters (10_state.md R41 to R46, 00_scope.md R8). -/
def Obligations.InvariantAtReset : Prop := Inv State.reset ∧ ∀ p : Config.Params, Inv (State.resetWith p)

/-- Every step keeps the invariant: register and counter ranges, one whole frame in the transmit buffer, no delimiter among the bytes
accumulated, acknowledgement committed while nothing is held, outbound state cleared while idle, intervals under their cap, buffers
canonical (10_state.md R33, R41 to R46). -/
def Obligations.StepKeepsInvariant : Prop := ∀ s t : State, Inv s → step s = .next t → Inv t

/-- No step from a state of the invariant goes out of a buffer's bounds (20_memory.md R69). -/
def Obligations.InvariantStatesNeverFault : Prop := ∀ s : State, Inv s → StepSafe s

/-- Once written the configuration never changes: only `BEGIN` and the reset event write it (10_state.md R21); and no step, not even
that of a reset, writes the parameters of the instance (00_scope.md R8). -/
def Obligations.OnlyBeginWritesConfiguration : Prop :=
  (∀ (i : Instr) (s t : State), exec i s = .next t →
    t.params = s.params ∧ ((∀ baud, i ≠ .begin baud) → i ≠ .reset → t.cfg = s.cfg)) ∧
  ∀ s t : State, step s = .next t → t.params = s.params

/-- Who writes the sequence numbers: `our_seq` `SEND` only, `ack_seq` `READ` only, `peer_seq_awaiting_read` no host operation but
`TICK` (10_state.md R22, R23, R24). -/
def Obligations.SequenceNumberWriters : Prop :=
  ∀ (i : Instr) (s t : State), exec i s = .next t → i ≠ .reset →
    ((∀ buf, i ≠ .send buf) → t.outb.ourSeq = s.outb.ourSeq) ∧
    ((∀ max, i ≠ .read max) → t.inb.ackSeq = s.inb.ackSeq) ∧
    (isOperation i = true → i ≠ .tick → t.inb.peerSeq = s.inb.peerSeq)

/-- Who samples the clock: `TICK`, an accepted `SEND`, `IS_OPEN` and `CLK_SAMPLE`, and nothing else writes the extender
(42_clock.md R148, 10_state.md R36). -/
def Obligations.OnlySamplingWritesClock : Prop :=
  ∀ (i : Instr) (s t : State), exec i s = .next t → i ≠ .tick → i ≠ .isOpen → i ≠ .clkSample → i ≠ .reset →
    (∀ buf, i = .send buf → s.outb.outgoingLen ≠ 0) → t.clk = s.clk

/-- `TICK` is the only operation that calls the transport's `read` and `write`, counts, or moves the pointers and the working
buffers (44_link_rx.md R180, 10_state.md R32, R33). -/
def Obligations.OnlyTickMovesBytes : Prop :=
  ∀ (i : Instr) (s t : State), isOperation i = true → i ≠ .tick → exec i s = .next t →
    t.env.rxFifo = s.env.rxFifo ∧ t.env.txFifo = s.env.txFifo ∧ t.stat = s.stat ∧ t.ptr = s.ptr ∧
    (∀ a, byteAt t .tx a = byteAt s .tx a) ∧ ∀ a, byteAt t .rx a = byteAt s .rx a

/-- A frame being sent is never altered: while `tx_len` is not 0 nothing but a reset writes `tx_buf`, and `tx_len` stays or falls to
0 (20_memory.md R77 (a), 10_state.md R43). -/
def Obligations.FrameBeingSentIsNotAltered : Prop :=
  ∀ (i : Instr) (s t : State), exec i s = .next t → i ≠ .reset → s.ptr.txLen ≠ 0 →
    (∀ a, byteAt t .tx a = byteAt s .tx a) ∧ (t.ptr.txLen = s.ptr.txLen ∨ t.ptr.txLen = 0)

/-- From one engine to the other: the frame one engine loads for a message, received whole by the other between two frames, puts
exactly that message into its inbound stash under the sender's number and counts one good frame, if the number is new
(45_link_tx.md R220, 44_link_rx.md R184 to R191). -/
def Obligations.LoadedFrameDeliversMessage : Prop :=
  ∀ (A B : State) (msg : List Byte) (now : Time), 1 ≤ msg.length → msg.length ≤ 248 →
    A.ptr.txLen = 0 → A.buf.tx.wf = true → B.ptr.rxWp = 0 → B.buf.rx.wf = true → B.buf.incoming.wf = true →
    A.outb.ourSeq ≠ B.inb.peerSeq →
    ∃ A' B', exec (.loadFrame msg) A = .next A' ∧
      receiveBytes now (firstBytes A' .tx A'.ptr.txLen.toNat) B = .next B' ∧
      firstBytes B' .incoming msg.length = msg ∧ B'.inb.incomingLen.toNat = msg.length ∧
      B'.inb = { B.inb with peerSeq := A.outb.ourSeq, incomingLen := B'.inb.incomingLen, lastRx := now } ∧
      B'.ptr = B.ptr ∧ B'.stat.rxOk = (B.stat.rxOk + 1) % 2 ^ B.params.cntW ∧ B'.stat.rxFail = B.stat.rxFail
end

