-- ==== Sys2Proof/Laws/Memory.lean ====
section
/-! SUPPORT. The laws of the buffers' contents: the canonical form is kept by every memory operation, a read after a write, what a
write leaves alone. -/

namespace Sys2Proof.Machine

theorem memWfFrom_weaken {lo lo' : Nat} {m : Memory} (h : memWfFrom lo m = true) (hle : lo' ≤ lo) : memWfFrom lo' m = true := by
  cases m with
  | nil => rfl
  | cons c m =>
    obtain ⟨a, b⟩ := c
    simp only [memWfFrom, Bool.and_eq_true, decide_eq_true_eq] at h ⊢
    exact ⟨⟨by omega, h.1.2⟩, h.2⟩

/-- A one-byte write keeps the canonical form. -/
theorem memWriteByte_wfFrom {lo : Nat} {m : Memory} {i : Nat} (v : Byte) (h : memWfFrom lo m = true) (hi : lo ≤ i) :
    memWfFrom lo (memWriteByte m i v) = true := by
  induction m generalizing lo with
  | nil =>
    unfold memWriteByte
    split
    · rfl
    · simp_all [memWfFrom]
  | cons c m ih =>
    obtain ⟨a, b⟩ := c
    simp only [memWfFrom, Bool.and_eq_true, decide_eq_true_eq, bne_iff_ne] at h
    unfold memWriteByte
    split
    · simp only [memWfFrom, Bool.and_eq_true, decide_eq_true_eq, bne_iff_ne]
      exact ⟨h.1, ih h.2 (by omega)⟩
    · split
      · split
        · exact memWfFrom_weaken h.2 (by omega)
        · simp only [memWfFrom, Bool.and_eq_true, decide_eq_true_eq, bne_iff_ne]
          subst_vars
          exact ⟨⟨hi, by assumption⟩, h.2⟩
      · split
        · simp only [memWfFrom, Bool.and_eq_true, decide_eq_true_eq, bne_iff_ne]
          exact h
        · simp only [memWfFrom, Bool.and_eq_true, decide_eq_true_eq, bne_iff_ne]
          exact ⟨⟨hi, by assumption⟩, ⟨by omega, h.1.2⟩, h.2⟩

theorem memWriteByte_wf {m : Memory} (i : Nat) (v : Byte) (h : m.wf = true) : (memWriteByte m i v).wf = true :=
  memWriteByte_wfFrom v h (Nat.zero_le i)

/-- A write of any number of bytes keeps the canonical form. -/
theorem memWriteBytes_wf {m : Memory} (i : Nat) (bs : List Byte) (h : m.wf = true) : (memWriteBytes m i bs).wf = true := by
  induction bs generalizing m i with
  | nil => exact h
  | cons b bs ih => exact ih (i + 1) (memWriteByte_wf i b h)

/-- Below the first listed index nothing is listed. -/
theorem memReadByte_below {lo : Nat} {m : Memory} {i : Nat} (h : memWfFrom lo m = true) (hi : i < lo) :
    memReadByte m i = Config.unwrittenByte := by
  induction m generalizing lo with
  | nil => rfl
  | cons c m ih =>
    obtain ⟨a, b⟩ := c
    simp only [memWfFrom, Bool.and_eq_true, decide_eq_true_eq] at h
    have : a ≠ i := by omega
    simp only [memReadByte, this, if_false]
    exact ih h.2 (by omega)

/-- A write leaves every other byte alone, in canonical form or not. -/
theorem memReadByte_writeByte_ne (m : Memory) {i j : Nat} (v : Byte) (h : j ≠ i) :
    memReadByte (memWriteByte m i v) j = memReadByte m j := by
  induction m with
  | nil =>
    unfold memWriteByte
    split
    · rfl
    · simp [memReadByte, h.symm]
  | cons c m ih =>
    obtain ⟨a, b⟩ := c
    unfold memWriteByte
    split
    · simp only [memReadByte, ih]
    · split
      · split <;> simp_all [memReadByte, h.symm]
      · split <;> simp [memReadByte, h.symm]

/-- A read after a write to the same index gives the value written. -/
theorem memReadByte_writeByte_same {lo : Nat} {m : Memory} {i : Nat} (v : Byte) (h : memWfFrom lo m = true) :
    memReadByte (memWriteByte m i v) i = v := by
  induction m generalizing lo with
  | nil =>
    unfold memWriteByte
    split
    · simp_all [memReadByte]
    · simp [memReadByte]
  | cons c m ih =>
    obtain ⟨a, b⟩ := c
    simp only [memWfFrom, Bool.and_eq_true, decide_eq_true_eq] at h
    unfold memWriteByte
    split
    · have : a ≠ i := by omega
      simp only [memReadByte, this, if_false]
      exact ih h.2
    · split
      · split
        · subst_vars
          exact memReadByte_below h.2 (by omega)
        · simp [memReadByte]
      · split
        · have : a ≠ i := by omega
          simp only [memReadByte, this, if_false]
          subst_vars
          exact memReadByte_below h.2 (by omega)
        · simp [memReadByte]

theorem memReadByte_writeBytes_outside (m : Memory) {i j : Nat} (bs : List Byte) (h : j < i ∨ i + bs.length ≤ j) :
    memReadByte (memWriteBytes m i bs) j = memReadByte m j := by
  induction bs generalizing m i with
  | nil => rfl
  | cons b bs ih =>
    simp only [List.length_cons] at h
    simp only [memWriteBytes]
    rw [ih _ (by omega), memReadByte_writeByte_ne _ _ (by omega)]

theorem memReadByte_writeBytes_inside {m : Memory} {i k : Nat} {bs : List Byte} (hw : m.wf = true) (hk : k < bs.length) :
    memReadByte (memWriteBytes m i bs) (i + k) = bs[k] := by
  induction bs generalizing m i k with
  | nil => simp at hk
  | cons b bs ih =>
    simp only [memWriteBytes]
    cases k with
    | zero =>
      rw [memReadByte_writeBytes_outside _ _ (by omega)]
      exact memReadByte_writeByte_same b hw
    | succ k =>
      have := ih (m := memWriteByte m i b) (i := i + 1) (k := k) (memWriteByte_wf i b hw) (by simpa using hk)
      rw [show i + (k + 1) = i + 1 + k by omega]
      simpa using this

@[simp] theorem memReadBytes_length (m : Memory) (i n : Nat) : (memReadBytes m i n).length = n := by
  induction n generalizing i with
  | zero => rfl
  | succ n ih => simp [memReadBytes, ih]

theorem memReadBytes_getElem (m : Memory) (i n k : Nat) (h : k < (memReadBytes m i n).length) :
    (memReadBytes m i n)[k] = memReadByte m (i + k) := by
  induction n generalizing i k with
  | zero => simp [memReadBytes] at h
  | succ n ih =>
    cases k with
    | zero => rfl
    | succ k =>
      simp only [memReadBytes, List.getElem_cons_succ]
      rw [ih]
      congr 1
      omega

/-- Reading back what was written. -/
theorem memReadBytes_writeBytes {m : Memory} (i : Nat) (bs : List Byte) (hw : m.wf = true) :
    memReadBytes (memWriteBytes m i bs) i bs.length = bs := by
  apply List.ext_getElem (by simp)
  intro k h1 h2
  rw [memReadBytes_getElem, memReadByte_writeBytes_inside hw h2]

theorem memReadBytes_congr {m m' : Memory} {i n : Nat} (h : ∀ k, k < n → memReadByte m (i + k) = memReadByte m' (i + k)) :
    memReadBytes m i n = memReadBytes m' i n := by
  apply List.ext_getElem (by simp)
  intro k h1 h2
  rw [memReadBytes_getElem, memReadBytes_getElem]
  exact h k (by simpa using h1)

theorem memWriteByte_below {n : Nat} {m : Memory} {i : Nat} (v : Byte) (h : memBelow n m = true) (hi : i < n) :
    memBelow n (memWriteByte m i v) = true := by
  induction m with
  | nil =>
    unfold memWriteByte
    split <;> simp [memBelow, hi]
  | cons c m ih =>
    obtain ⟨a, b⟩ := c
    simp only [memBelow, List.all_cons, Bool.and_eq_true, decide_eq_true_eq] at h ih
    unfold memWriteByte
    split
    · simp only [memBelow, List.all_cons, Bool.and_eq_true, decide_eq_true_eq]
      exact ⟨h.1, ih h.2⟩
    · split <;> split <;> simp only [memBelow, List.all_cons, Bool.and_eq_true, decide_eq_true_eq]
      · exact h.2
      · exact ⟨hi, h.2⟩
      · exact h
      · exact ⟨hi, h⟩

/-- A write inside the capacity lists nothing beyond it. -/
theorem memWriteBytes_below {n : Nat} {m : Memory} {i : Nat} (bs : List Byte) (h : memBelow n m = true)
    (hi : i + bs.length ≤ n) : memBelow n (memWriteBytes m i bs) = true := by
  induction bs generalizing m i with
  | nil => exact h
  | cons b bs ih =>
    simp only [List.length_cons] at hi
    exact ih (memWriteByte_below b h (by omega)) (by omega)

/-- The reset state's buffers have the canonical form. -/
theorem reset_buffers_wf (b : Buffer) : (getBuf State.reset b).wf = true := by cases b <;> rfl

end Sys2Proof.Machine
end

