-- ==== Sys2Proof/Laws/State.lean ====
section
/-! SUPPORT. One lemma per field per named update: what each named update of the state changes and what it leaves alone. -/

namespace Sys2Proof.Machine

/-! ## `respond` -/

@[simp] theorem respond_params (s : State) (r : Response) : (respond s r).params = s.params := rfl
@[simp] theorem respond_cfg (s : State) (r : Response) : (respond s r).cfg = s.cfg := rfl
@[simp] theorem respond_outb (s : State) (r : Response) : (respond s r).outb = s.outb := rfl
@[simp] theorem respond_inb (s : State) (r : Response) : (respond s r).inb = s.inb := rfl
@[simp] theorem respond_ptr (s : State) (r : Response) : (respond s r).ptr = s.ptr := rfl
@[simp] theorem respond_stat (s : State) (r : Response) : (respond s r).stat = s.stat := rfl
@[simp] theorem respond_clk (s : State) (r : Response) : (respond s r).clk = s.clk := rfl
@[simp] theorem respond_buf (s : State) (r : Response) : (respond s r).buf = s.buf := rfl
@[simp] theorem respond_env (s : State) (r : Response) : (respond s r).env = s.env := rfl
@[simp] theorem respond_host_pending (s : State) (r : Response) : (respond s r).host.pending = s.host.pending := rfl
@[simp] theorem respond_host_resetRequest (s : State) (r : Response) : (respond s r).host.resetRequest = s.host.resetRequest := rfl
@[simp] theorem respond_host_response (s : State) (r : Response) : (respond s r).host.response = r := rfl
@[simp] theorem respond_cobs (s : State) (r : Response) : (respond s r).cobs = s.cobs := rfl

/-! ## `tBegin` -/

@[simp] theorem tBegin_params (s : State) (n : Nat) : (tBegin s n).params = s.params := rfl
@[simp] theorem tBegin_cfg (s : State) (n : Nat) : (tBegin s n).cfg = s.cfg := rfl
@[simp] theorem tBegin_outb (s : State) (n : Nat) : (tBegin s n).outb = s.outb := rfl
@[simp] theorem tBegin_inb (s : State) (n : Nat) : (tBegin s n).inb = s.inb := rfl
@[simp] theorem tBegin_ptr (s : State) (n : Nat) : (tBegin s n).ptr = s.ptr := rfl
@[simp] theorem tBegin_stat (s : State) (n : Nat) : (tBegin s n).stat = s.stat := rfl
@[simp] theorem tBegin_clk (s : State) (n : Nat) : (tBegin s n).clk = s.clk := rfl
@[simp] theorem tBegin_buf (s : State) (n : Nat) : (tBegin s n).buf = s.buf := rfl
@[simp] theorem tBegin_env_rxFifo (s : State) (n : Nat) : (tBegin s n).env.rxFifo = s.env.rxFifo := rfl
@[simp] theorem tBegin_env_arrivals (s : State) (n : Nat) : (tBegin s n).env.arrivals = s.env.arrivals := rfl
@[simp] theorem tBegin_env_txFifo (s : State) (n : Nat) : (tBegin s n).env.txFifo = s.env.txFifo := rfl
@[simp] theorem tBegin_env_writeSpace (s : State) (n : Nat) : (tBegin s n).env.writeSpace = s.env.writeSpace := rfl
@[simp] theorem tBegin_env_spaceQueries (s : State) (n : Nat) : (tBegin s n).env.spaceQueries = s.env.spaceQueries := rfl
@[simp] theorem tBegin_env_baud (s : State) (n : Nat) : (tBegin s n).env.baud = some n := rfl
@[simp] theorem tBegin_env_micros (s : State) (n : Nat) : (tBegin s n).env.micros = s.env.micros := rfl
@[simp] theorem tBegin_env_microsReads (s : State) (n : Nat) : (tBegin s n).env.microsReads = s.env.microsReads := rfl
@[simp] theorem tBegin_env_resets (s : State) (n : Nat) : (tBegin s n).env.resets = s.env.resets := rfl
@[simp] theorem tBegin_host (s : State) (n : Nat) : (tBegin s n).host = s.host := rfl
@[simp] theorem tBegin_cobs (s : State) (n : Nat) : (tBegin s n).cobs = s.cobs := rfl

/-! ## `tWrite` -/

@[simp] theorem tWrite_params (s : State) (bs : List Byte) : (tWrite s bs).params = s.params := rfl
@[simp] theorem tWrite_cfg (s : State) (bs : List Byte) : (tWrite s bs).cfg = s.cfg := rfl
@[simp] theorem tWrite_outb (s : State) (bs : List Byte) : (tWrite s bs).outb = s.outb := rfl
@[simp] theorem tWrite_inb (s : State) (bs : List Byte) : (tWrite s bs).inb = s.inb := rfl
@[simp] theorem tWrite_ptr (s : State) (bs : List Byte) : (tWrite s bs).ptr = s.ptr := rfl
@[simp] theorem tWrite_stat (s : State) (bs : List Byte) : (tWrite s bs).stat = s.stat := rfl
@[simp] theorem tWrite_clk (s : State) (bs : List Byte) : (tWrite s bs).clk = s.clk := rfl
@[simp] theorem tWrite_buf (s : State) (bs : List Byte) : (tWrite s bs).buf = s.buf := rfl
@[simp] theorem tWrite_env_rxFifo (s : State) (bs : List Byte) : (tWrite s bs).env.rxFifo = s.env.rxFifo := rfl
@[simp] theorem tWrite_env_arrivals (s : State) (bs : List Byte) : (tWrite s bs).env.arrivals = s.env.arrivals := rfl
@[simp] theorem tWrite_env_txFifo (s : State) (bs : List Byte) : (tWrite s bs).env.txFifo = s.env.txFifo ++ bs := rfl
@[simp] theorem tWrite_env_writeSpace (s : State) (bs : List Byte) : (tWrite s bs).env.writeSpace = s.env.writeSpace := rfl
@[simp] theorem tWrite_env_spaceQueries (s : State) (bs : List Byte) : (tWrite s bs).env.spaceQueries = s.env.spaceQueries := rfl
@[simp] theorem tWrite_env_baud (s : State) (bs : List Byte) : (tWrite s bs).env.baud = s.env.baud := rfl
@[simp] theorem tWrite_env_micros (s : State) (bs : List Byte) : (tWrite s bs).env.micros = s.env.micros := rfl
@[simp] theorem tWrite_env_microsReads (s : State) (bs : List Byte) : (tWrite s bs).env.microsReads = s.env.microsReads := rfl
@[simp] theorem tWrite_env_resets (s : State) (bs : List Byte) : (tWrite s bs).env.resets = s.env.resets := rfl
@[simp] theorem tWrite_host (s : State) (bs : List Byte) : (tWrite s bs).host = s.host := rfl
@[simp] theorem tWrite_cobs (s : State) (bs : List Byte) : (tWrite s bs).cobs = s.cobs := rfl

/-! ## `tReadLeaves` -/

@[simp] theorem tReadLeaves_params (s : State) (bs : List Byte) : (tReadLeaves s bs).params = s.params := rfl
@[simp] theorem tReadLeaves_cfg (s : State) (bs : List Byte) : (tReadLeaves s bs).cfg = s.cfg := rfl
@[simp] theorem tReadLeaves_outb (s : State) (bs : List Byte) : (tReadLeaves s bs).outb = s.outb := rfl
@[simp] theorem tReadLeaves_inb (s : State) (bs : List Byte) : (tReadLeaves s bs).inb = s.inb := rfl
@[simp] theorem tReadLeaves_ptr (s : State) (bs : List Byte) : (tReadLeaves s bs).ptr = s.ptr := rfl
@[simp] theorem tReadLeaves_stat (s : State) (bs : List Byte) : (tReadLeaves s bs).stat = s.stat := rfl
@[simp] theorem tReadLeaves_clk (s : State) (bs : List Byte) : (tReadLeaves s bs).clk = s.clk := rfl
@[simp] theorem tReadLeaves_buf (s : State) (bs : List Byte) : (tReadLeaves s bs).buf = s.buf := rfl
@[simp] theorem tReadLeaves_env_rxFifo (s : State) (bs : List Byte) : (tReadLeaves s bs).env.rxFifo = bs := rfl
@[simp] theorem tReadLeaves_env_arrivals (s : State) (bs : List Byte) : (tReadLeaves s bs).env.arrivals = s.env.arrivals := rfl
@[simp] theorem tReadLeaves_env_txFifo (s : State) (bs : List Byte) : (tReadLeaves s bs).env.txFifo = s.env.txFifo := rfl
@[simp] theorem tReadLeaves_env_writeSpace (s : State) (bs : List Byte) : (tReadLeaves s bs).env.writeSpace = s.env.writeSpace := rfl
@[simp] theorem tReadLeaves_env_spaceQueries (s : State) (bs : List Byte) : (tReadLeaves s bs).env.spaceQueries = s.env.spaceQueries := rfl
@[simp] theorem tReadLeaves_env_baud (s : State) (bs : List Byte) : (tReadLeaves s bs).env.baud = s.env.baud := rfl
@[simp] theorem tReadLeaves_env_micros (s : State) (bs : List Byte) : (tReadLeaves s bs).env.micros = s.env.micros := rfl
@[simp] theorem tReadLeaves_env_microsReads (s : State) (bs : List Byte) : (tReadLeaves s bs).env.microsReads = s.env.microsReads := rfl
@[simp] theorem tReadLeaves_env_resets (s : State) (bs : List Byte) : (tReadLeaves s bs).env.resets = s.env.resets := rfl
@[simp] theorem tReadLeaves_host (s : State) (bs : List Byte) : (tReadLeaves s bs).host = s.host := rfl
@[simp] theorem tReadLeaves_cobs (s : State) (bs : List Byte) : (tReadLeaves s bs).cobs = s.cobs := rfl

/-! ## `resetOutbound` -/

@[simp] theorem resetOutbound_params (s : State) : (resetOutbound s).params = s.params := rfl
@[simp] theorem resetOutbound_cfg (s : State) : (resetOutbound s).cfg = s.cfg := rfl
@[simp] theorem resetOutbound_outb_ourSeq (s : State) : (resetOutbound s).outb.ourSeq = s.outb.ourSeq := rfl
@[simp] theorem resetOutbound_outb_outgoingLen (s : State) : (resetOutbound s).outb.outgoingLen = 0 := rfl
@[simp] theorem resetOutbound_outb_retryCount (s : State) : (resetOutbound s).outb.retryCount = 0 := rfl
@[simp] theorem resetOutbound_outb_lastTxTime (s : State) : (resetOutbound s).outb.lastTxTime = 0 := rfl
@[simp] theorem resetOutbound_outb_timeout (s : State) : (resetOutbound s).outb.timeout = s.outb.timeout := rfl
@[simp] theorem resetOutbound_outb_txStartTime (s : State) : (resetOutbound s).outb.txStartTime = s.outb.txStartTime := rfl
@[simp] theorem resetOutbound_outb_lastTxOut (s : State) : (resetOutbound s).outb.lastTxOut = s.outb.lastTxOut := rfl
@[simp] theorem resetOutbound_inb (s : State) : (resetOutbound s).inb = s.inb := rfl
@[simp] theorem resetOutbound_ptr (s : State) : (resetOutbound s).ptr = s.ptr := rfl
@[simp] theorem resetOutbound_stat (s : State) : (resetOutbound s).stat = s.stat := rfl
@[simp] theorem resetOutbound_clk (s : State) : (resetOutbound s).clk = s.clk := rfl
@[simp] theorem resetOutbound_buf (s : State) : (resetOutbound s).buf = s.buf := rfl
@[simp] theorem resetOutbound_env (s : State) : (resetOutbound s).env = s.env := rfl
@[simp] theorem resetOutbound_host (s : State) : (resetOutbound s).host = s.host := rfl
@[simp] theorem resetOutbound_cobs (s : State) : (resetOutbound s).cobs = s.cobs := rfl

/-! ## `setAckRequired` -/

@[simp] theorem setAckRequired_params (s : State) (v : Bool) : (setAckRequired s v).params = s.params := rfl
@[simp] theorem setAckRequired_cfg (s : State) (v : Bool) : (setAckRequired s v).cfg = s.cfg := rfl
@[simp] theorem setAckRequired_outb (s : State) (v : Bool) : (setAckRequired s v).outb = s.outb := rfl
@[simp] theorem setAckRequired_inb_ackSeq (s : State) (v : Bool) : (setAckRequired s v).inb.ackSeq = s.inb.ackSeq := rfl
@[simp] theorem setAckRequired_inb_peerSeq (s : State) (v : Bool) : (setAckRequired s v).inb.peerSeq = s.inb.peerSeq := rfl
@[simp] theorem setAckRequired_inb_incomingLen (s : State) (v : Bool) : (setAckRequired s v).inb.incomingLen = s.inb.incomingLen := rfl
@[simp] theorem setAckRequired_inb_ackRequired (s : State) (v : Bool) : (setAckRequired s v).inb.ackRequired = v := rfl
@[simp] theorem setAckRequired_inb_lastRx (s : State) (v : Bool) : (setAckRequired s v).inb.lastRx = s.inb.lastRx := rfl
@[simp] theorem setAckRequired_ptr (s : State) (v : Bool) : (setAckRequired s v).ptr = s.ptr := rfl
@[simp] theorem setAckRequired_stat (s : State) (v : Bool) : (setAckRequired s v).stat = s.stat := rfl
@[simp] theorem setAckRequired_clk (s : State) (v : Bool) : (setAckRequired s v).clk = s.clk := rfl
@[simp] theorem setAckRequired_buf (s : State) (v : Bool) : (setAckRequired s v).buf = s.buf := rfl
@[simp] theorem setAckRequired_env (s : State) (v : Bool) : (setAckRequired s v).env = s.env := rfl
@[simp] theorem setAckRequired_host (s : State) (v : Bool) : (setAckRequired s v).host = s.host := rfl
@[simp] theorem setAckRequired_cobs (s : State) (v : Bool) : (setAckRequired s v).cobs = s.cobs := rfl

/-! ## `setRxWp` -/

@[simp] theorem setRxWp_params (s : State) (v : BitVec 9) : (setRxWp s v).params = s.params := rfl
@[simp] theorem setRxWp_cfg (s : State) (v : BitVec 9) : (setRxWp s v).cfg = s.cfg := rfl
@[simp] theorem setRxWp_outb (s : State) (v : BitVec 9) : (setRxWp s v).outb = s.outb := rfl
@[simp] theorem setRxWp_inb (s : State) (v : BitVec 9) : (setRxWp s v).inb = s.inb := rfl
@[simp] theorem setRxWp_ptr_txLen (s : State) (v : BitVec 9) : (setRxWp s v).ptr.txLen = s.ptr.txLen := rfl
@[simp] theorem setRxWp_ptr_txRp (s : State) (v : BitVec 9) : (setRxWp s v).ptr.txRp = s.ptr.txRp := rfl
@[simp] theorem setRxWp_ptr_rxWp (s : State) (v : BitVec 9) : (setRxWp s v).ptr.rxWp = v := rfl
@[simp] theorem setRxWp_stat (s : State) (v : BitVec 9) : (setRxWp s v).stat = s.stat := rfl
@[simp] theorem setRxWp_clk (s : State) (v : BitVec 9) : (setRxWp s v).clk = s.clk := rfl
@[simp] theorem setRxWp_buf (s : State) (v : BitVec 9) : (setRxWp s v).buf = s.buf := rfl
@[simp] theorem setRxWp_env (s : State) (v : BitVec 9) : (setRxWp s v).env = s.env := rfl
@[simp] theorem setRxWp_host (s : State) (v : BitVec 9) : (setRxWp s v).host = s.host := rfl
@[simp] theorem setRxWp_cobs (s : State) (v : BitVec 9) : (setRxWp s v).cobs = s.cobs := rfl

/-! ## `releaseMessage` -/

@[simp] theorem releaseMessage_params (s : State) : (releaseMessage s).params = s.params := rfl
@[simp] theorem releaseMessage_cfg (s : State) : (releaseMessage s).cfg = s.cfg := rfl
@[simp] theorem releaseMessage_outb (s : State) : (releaseMessage s).outb = s.outb := rfl
@[simp] theorem releaseMessage_inb_ackSeq (s : State) : (releaseMessage s).inb.ackSeq = s.inb.peerSeq := rfl
@[simp] theorem releaseMessage_inb_peerSeq (s : State) : (releaseMessage s).inb.peerSeq = s.inb.peerSeq := rfl
@[simp] theorem releaseMessage_inb_incomingLen (s : State) : (releaseMessage s).inb.incomingLen = 0 := rfl
@[simp] theorem releaseMessage_inb_ackRequired (s : State) : (releaseMessage s).inb.ackRequired = true := rfl
@[simp] theorem releaseMessage_inb_lastRx (s : State) : (releaseMessage s).inb.lastRx = s.inb.lastRx := rfl
@[simp] theorem releaseMessage_ptr (s : State) : (releaseMessage s).ptr = s.ptr := rfl
@[simp] theorem releaseMessage_stat (s : State) : (releaseMessage s).stat = s.stat := rfl
@[simp] theorem releaseMessage_clk (s : State) : (releaseMessage s).clk = s.clk := rfl
@[simp] theorem releaseMessage_buf (s : State) : (releaseMessage s).buf = s.buf := rfl
@[simp] theorem releaseMessage_env (s : State) : (releaseMessage s).env = s.env := rfl
@[simp] theorem releaseMessage_host (s : State) : (releaseMessage s).host = s.host := rfl
@[simp] theorem releaseMessage_cobs (s : State) : (releaseMessage s).cobs = s.cobs := rfl

/-! ## `goodFrame` -/

@[simp] theorem goodFrame_params (now : Time) (s : State) : (goodFrame now s).params = s.params := rfl
@[simp] theorem goodFrame_cfg (now : Time) (s : State) : (goodFrame now s).cfg = s.cfg := rfl
@[simp] theorem goodFrame_outb (now : Time) (s : State) : (goodFrame now s).outb = s.outb := rfl
@[simp] theorem goodFrame_inb_ackSeq (now : Time) (s : State) : (goodFrame now s).inb.ackSeq = s.inb.ackSeq := rfl
@[simp] theorem goodFrame_inb_peerSeq (now : Time) (s : State) : (goodFrame now s).inb.peerSeq = s.inb.peerSeq := rfl
@[simp] theorem goodFrame_inb_incomingLen (now : Time) (s : State) : (goodFrame now s).inb.incomingLen = s.inb.incomingLen := rfl
@[simp] theorem goodFrame_inb_ackRequired (now : Time) (s : State) : (goodFrame now s).inb.ackRequired = s.inb.ackRequired := rfl
@[simp] theorem goodFrame_inb_lastRx (now : Time) (s : State) : (goodFrame now s).inb.lastRx = now := rfl
@[simp] theorem goodFrame_ptr (now : Time) (s : State) : (goodFrame now s).ptr = s.ptr := rfl
@[simp] theorem goodFrame_stat_rxOk (now : Time) (s : State) : (goodFrame now s).stat.rxOk = countUp s.params s.stat.rxOk := rfl
@[simp] theorem goodFrame_stat_rxFail (now : Time) (s : State) : (goodFrame now s).stat.rxFail = s.stat.rxFail := rfl
@[simp] theorem goodFrame_stat_txOk (now : Time) (s : State) : (goodFrame now s).stat.txOk = s.stat.txOk := rfl
@[simp] theorem goodFrame_stat_txFail (now : Time) (s : State) : (goodFrame now s).stat.txFail = s.stat.txFail := rfl
@[simp] theorem goodFrame_stat_txTotalRetries (now : Time) (s : State) : (goodFrame now s).stat.txTotalRetries = s.stat.txTotalRetries := rfl
@[simp] theorem goodFrame_stat_maxRetryIntervalIssued (now : Time) (s : State) : (goodFrame now s).stat.maxRetryIntervalIssued = s.stat.maxRetryIntervalIssued := rfl
@[simp] theorem goodFrame_stat_avgTotalTransmitTime (now : Time) (s : State) : (goodFrame now s).stat.avgTotalTransmitTime = s.stat.avgTotalTransmitTime := rfl
@[simp] theorem goodFrame_stat_avgWireTime (now : Time) (s : State) : (goodFrame now s).stat.avgWireTime = s.stat.avgWireTime := rfl
@[simp] theorem goodFrame_clk (now : Time) (s : State) : (goodFrame now s).clk = s.clk := rfl
@[simp] theorem goodFrame_buf (now : Time) (s : State) : (goodFrame now s).buf = s.buf := rfl
@[simp] theorem goodFrame_env (now : Time) (s : State) : (goodFrame now s).env = s.env := rfl
@[simp] theorem goodFrame_host (now : Time) (s : State) : (goodFrame now s).host = s.host := rfl
@[simp] theorem goodFrame_cobs (now : Time) (s : State) : (goodFrame now s).cobs = s.cobs := rfl

/-! ## `frameLoaded` -/

@[simp] theorem frameLoaded_params (now : Time) (s : State) : (frameLoaded now s).params = s.params := rfl
@[simp] theorem frameLoaded_cfg (now : Time) (s : State) : (frameLoaded now s).cfg = s.cfg := rfl
@[simp] theorem frameLoaded_outb_ourSeq (now : Time) (s : State) : (frameLoaded now s).outb.ourSeq = s.outb.ourSeq := rfl
@[simp] theorem frameLoaded_outb_outgoingLen (now : Time) (s : State) : (frameLoaded now s).outb.outgoingLen = s.outb.outgoingLen := rfl
@[simp] theorem frameLoaded_outb_retryCount (now : Time) (s : State) : (frameLoaded now s).outb.retryCount = s.outb.retryCount := rfl
@[simp] theorem frameLoaded_outb_lastTxTime (now : Time) (s : State) : (frameLoaded now s).outb.lastTxTime = s.outb.lastTxTime := rfl
@[simp] theorem frameLoaded_outb_timeout (now : Time) (s : State) : (frameLoaded now s).outb.timeout = s.outb.timeout := rfl
@[simp] theorem frameLoaded_outb_txStartTime (now : Time) (s : State) : (frameLoaded now s).outb.txStartTime = s.outb.txStartTime := rfl
@[simp] theorem frameLoaded_outb_lastTxOut (now : Time) (s : State) : (frameLoaded now s).outb.lastTxOut = now := rfl
@[simp] theorem frameLoaded_inb_ackSeq (now : Time) (s : State) : (frameLoaded now s).inb.ackSeq = s.inb.ackSeq := rfl
@[simp] theorem frameLoaded_inb_peerSeq (now : Time) (s : State) : (frameLoaded now s).inb.peerSeq = s.inb.peerSeq := rfl
@[simp] theorem frameLoaded_inb_incomingLen (now : Time) (s : State) : (frameLoaded now s).inb.incomingLen = s.inb.incomingLen := rfl
@[simp] theorem frameLoaded_inb_ackRequired (now : Time) (s : State) : (frameLoaded now s).inb.ackRequired = false := rfl
@[simp] theorem frameLoaded_inb_lastRx (now : Time) (s : State) : (frameLoaded now s).inb.lastRx = s.inb.lastRx := rfl
@[simp] theorem frameLoaded_ptr (now : Time) (s : State) : (frameLoaded now s).ptr = s.ptr := rfl
@[simp] theorem frameLoaded_stat (now : Time) (s : State) : (frameLoaded now s).stat = s.stat := rfl
@[simp] theorem frameLoaded_clk (now : Time) (s : State) : (frameLoaded now s).clk = s.clk := rfl
@[simp] theorem frameLoaded_buf (now : Time) (s : State) : (frameLoaded now s).buf = s.buf := rfl
@[simp] theorem frameLoaded_env (now : Time) (s : State) : (frameLoaded now s).env = s.env := rfl
@[simp] theorem frameLoaded_host (now : Time) (s : State) : (frameLoaded now s).host = s.host := rfl
@[simp] theorem frameLoaded_cobs (now : Time) (s : State) : (frameLoaded now s).cobs = s.cobs := rfl

/-! ## `armRetry` -/

@[simp] theorem armRetry_params (s : State) : (armRetry s).params = s.params := rfl
@[simp] theorem armRetry_cfg (s : State) : (armRetry s).cfg = s.cfg := rfl
@[simp] theorem armRetry_outb_ourSeq (s : State) : (armRetry s).outb.ourSeq = s.outb.ourSeq := rfl
@[simp] theorem armRetry_outb_outgoingLen (s : State) : (armRetry s).outb.outgoingLen = s.outb.outgoingLen := rfl
@[simp] theorem armRetry_outb_retryCount (s : State) : (armRetry s).outb.retryCount = s.outb.retryCount := rfl
@[simp] theorem armRetry_outb_lastTxTime (s : State) : (armRetry s).outb.lastTxTime = s.outb.lastTxTime := rfl
@[simp] theorem armRetry_outb_timeout (s : State) : (armRetry s).outb.timeout = backoff s s.outb.retryCount.toNat := rfl
@[simp] theorem armRetry_outb_txStartTime (s : State) : (armRetry s).outb.txStartTime = s.outb.txStartTime := rfl
@[simp] theorem armRetry_outb_lastTxOut (s : State) : (armRetry s).outb.lastTxOut = s.outb.lastTxOut := rfl
@[simp] theorem armRetry_inb (s : State) : (armRetry s).inb = s.inb := rfl
@[simp] theorem armRetry_ptr (s : State) : (armRetry s).ptr = s.ptr := rfl
@[simp] theorem armRetry_stat_rxOk (s : State) : (armRetry s).stat.rxOk = s.stat.rxOk := rfl
@[simp] theorem armRetry_stat_rxFail (s : State) : (armRetry s).stat.rxFail = s.stat.rxFail := rfl
@[simp] theorem armRetry_stat_txOk (s : State) : (armRetry s).stat.txOk = s.stat.txOk := rfl
@[simp] theorem armRetry_stat_txFail (s : State) : (armRetry s).stat.txFail = s.stat.txFail := rfl
@[simp] theorem armRetry_stat_txTotalRetries (s : State) : (armRetry s).stat.txTotalRetries = s.stat.txTotalRetries := rfl
@[simp] theorem armRetry_stat_avgTotalTransmitTime (s : State) : (armRetry s).stat.avgTotalTransmitTime = s.stat.avgTotalTransmitTime := rfl
@[simp] theorem armRetry_stat_avgWireTime (s : State) : (armRetry s).stat.avgWireTime = s.stat.avgWireTime := rfl
@[simp] theorem armRetry_clk (s : State) : (armRetry s).clk = s.clk := rfl
@[simp] theorem armRetry_buf (s : State) : (armRetry s).buf = s.buf := rfl
@[simp] theorem armRetry_env (s : State) : (armRetry s).env = s.env := rfl
@[simp] theorem armRetry_host (s : State) : (armRetry s).host = s.host := rfl
@[simp] theorem armRetry_cobs (s : State) : (armRetry s).cobs = s.cobs := rfl

/-! ## `ewmaUpdate` -/

@[simp] theorem ewmaUpdate_params (now : Time) (s : State) : (ewmaUpdate now s).params = s.params := rfl
@[simp] theorem ewmaUpdate_cfg (now : Time) (s : State) : (ewmaUpdate now s).cfg = s.cfg := rfl
@[simp] theorem ewmaUpdate_outb (now : Time) (s : State) : (ewmaUpdate now s).outb = s.outb := rfl
@[simp] theorem ewmaUpdate_inb (now : Time) (s : State) : (ewmaUpdate now s).inb = s.inb := rfl
@[simp] theorem ewmaUpdate_ptr (now : Time) (s : State) : (ewmaUpdate now s).ptr = s.ptr := rfl
@[simp] theorem ewmaUpdate_stat_rxOk (now : Time) (s : State) : (ewmaUpdate now s).stat.rxOk = s.stat.rxOk := rfl
@[simp] theorem ewmaUpdate_stat_rxFail (now : Time) (s : State) : (ewmaUpdate now s).stat.rxFail = s.stat.rxFail := rfl
@[simp] theorem ewmaUpdate_stat_txOk (now : Time) (s : State) : (ewmaUpdate now s).stat.txOk = s.stat.txOk := rfl
@[simp] theorem ewmaUpdate_stat_txFail (now : Time) (s : State) : (ewmaUpdate now s).stat.txFail = s.stat.txFail := rfl
@[simp] theorem ewmaUpdate_stat_txTotalRetries (now : Time) (s : State) : (ewmaUpdate now s).stat.txTotalRetries = s.stat.txTotalRetries := rfl
@[simp] theorem ewmaUpdate_stat_maxRetryIntervalIssued (now : Time) (s : State) : (ewmaUpdate now s).stat.maxRetryIntervalIssued = s.stat.maxRetryIntervalIssued := rfl
@[simp] theorem ewmaUpdate_clk (now : Time) (s : State) : (ewmaUpdate now s).clk = s.clk := rfl
@[simp] theorem ewmaUpdate_buf (now : Time) (s : State) : (ewmaUpdate now s).buf = s.buf := rfl
@[simp] theorem ewmaUpdate_env (now : Time) (s : State) : (ewmaUpdate now s).env = s.env := rfl
@[simp] theorem ewmaUpdate_host (now : Time) (s : State) : (ewmaUpdate now s).host = s.host := rfl
@[simp] theorem ewmaUpdate_cobs (now : Time) (s : State) : (ewmaUpdate now s).cobs = s.cobs := rfl

/-! ## `messageAcknowledged` -/

@[simp] theorem messageAcknowledged_params (now : Time) (s : State) : (messageAcknowledged now s).params = s.params := rfl
@[simp] theorem messageAcknowledged_cfg (now : Time) (s : State) : (messageAcknowledged now s).cfg = s.cfg := rfl
@[simp] theorem messageAcknowledged_outb_ourSeq (now : Time) (s : State) : (messageAcknowledged now s).outb.ourSeq = s.outb.ourSeq := rfl
@[simp] theorem messageAcknowledged_outb_outgoingLen (now : Time) (s : State) : (messageAcknowledged now s).outb.outgoingLen = 0 := rfl
@[simp] theorem messageAcknowledged_outb_retryCount (now : Time) (s : State) : (messageAcknowledged now s).outb.retryCount = 0 := rfl
@[simp] theorem messageAcknowledged_outb_lastTxTime (now : Time) (s : State) : (messageAcknowledged now s).outb.lastTxTime = 0 := rfl
@[simp] theorem messageAcknowledged_outb_timeout (now : Time) (s : State) : (messageAcknowledged now s).outb.timeout = s.outb.timeout := rfl
@[simp] theorem messageAcknowledged_outb_txStartTime (now : Time) (s : State) : (messageAcknowledged now s).outb.txStartTime = s.outb.txStartTime := rfl
@[simp] theorem messageAcknowledged_outb_lastTxOut (now : Time) (s : State) : (messageAcknowledged now s).outb.lastTxOut = s.outb.lastTxOut := rfl
@[simp] theorem messageAcknowledged_inb (now : Time) (s : State) : (messageAcknowledged now s).inb = s.inb := rfl
@[simp] theorem messageAcknowledged_ptr (now : Time) (s : State) : (messageAcknowledged now s).ptr = s.ptr := rfl
@[simp] theorem messageAcknowledged_stat_rxOk (now : Time) (s : State) : (messageAcknowledged now s).stat.rxOk = s.stat.rxOk := rfl
@[simp] theorem messageAcknowledged_stat_rxFail (now : Time) (s : State) : (messageAcknowledged now s).stat.rxFail = s.stat.rxFail := rfl
@[simp] theorem messageAcknowledged_stat_txOk (now : Time) (s : State) : (messageAcknowledged now s).stat.txOk = countUp s.params s.stat.txOk := rfl
@[simp] theorem messageAcknowledged_stat_txFail (now : Time) (s : State) : (messageAcknowledged now s).stat.txFail = s.stat.txFail := rfl
@[simp] theorem messageAcknowledged_stat_txTotalRetries (now : Time) (s : State) : (messageAcknowledged now s).stat.txTotalRetries = s.stat.txTotalRetries := rfl
@[simp] theorem messageAcknowledged_stat_maxRetryIntervalIssued (now : Time) (s : State) : (messageAcknowledged now s).stat.maxRetryIntervalIssued = s.stat.maxRetryIntervalIssued := rfl
@[simp] theorem messageAcknowledged_clk (now : Time) (s : State) : (messageAcknowledged now s).clk = s.clk := rfl
@[simp] theorem messageAcknowledged_buf (now : Time) (s : State) : (messageAcknowledged now s).buf = s.buf := rfl
@[simp] theorem messageAcknowledged_env (now : Time) (s : State) : (messageAcknowledged now s).env = s.env := rfl
@[simp] theorem messageAcknowledged_host (now : Time) (s : State) : (messageAcknowledged now s).host = s.host := rfl
@[simp] theorem messageAcknowledged_cobs (now : Time) (s : State) : (messageAcknowledged now s).cobs = s.cobs := rfl

/-! ## `cobsStop` -/

@[simp] theorem cobsStop_params (out : List Byte) (s : State) : (cobsStop out s).params = s.params := rfl
@[simp] theorem cobsStop_cfg (out : List Byte) (s : State) : (cobsStop out s).cfg = s.cfg := rfl
@[simp] theorem cobsStop_outb (out : List Byte) (s : State) : (cobsStop out s).outb = s.outb := rfl
@[simp] theorem cobsStop_inb (out : List Byte) (s : State) : (cobsStop out s).inb = s.inb := rfl
@[simp] theorem cobsStop_ptr (out : List Byte) (s : State) : (cobsStop out s).ptr = s.ptr := rfl
@[simp] theorem cobsStop_stat (out : List Byte) (s : State) : (cobsStop out s).stat = s.stat := rfl
@[simp] theorem cobsStop_clk (out : List Byte) (s : State) : (cobsStop out s).clk = s.clk := rfl
@[simp] theorem cobsStop_buf (out : List Byte) (s : State) : (cobsStop out s).buf = s.buf := rfl
@[simp] theorem cobsStop_env (out : List Byte) (s : State) : (cobsStop out s).env = s.env := rfl
@[simp] theorem cobsStop_host_pending (out : List Byte) (s : State) : (cobsStop out s).host.pending = s.host.pending := rfl
@[simp] theorem cobsStop_host_resetRequest (out : List Byte) (s : State) : (cobsStop out s).host.resetRequest = s.host.resetRequest := rfl
@[simp] theorem cobsStop_host_response (out : List Byte) (s : State) : (cobsStop out s).host.response = .bytesLen out out.length := rfl
@[simp] theorem cobsStop_cobs_active (out : List Byte) (s : State) : (cobsStop out s).cobs.active = false := rfl
@[simp] theorem cobsStop_cobs_input (out : List Byte) (s : State) : (cobsStop out s).cobs.input = [] := rfl
@[simp] theorem cobsStop_cobs_out (out : List Byte) (s : State) : (cobsStop out s).cobs.out = [] := rfl
@[simp] theorem cobsStop_cobs_code (out : List Byte) (s : State) : (cobsStop out s).cobs.code = 0xFF#8 := rfl

/-! ## `setBuf` -/

@[simp] theorem setBuf_params (s : State) (b : Buffer) (m : Memory) : (setBuf s b m).params = s.params := by cases b <;> rfl
@[simp] theorem setBuf_cfg (s : State) (b : Buffer) (m : Memory) : (setBuf s b m).cfg = s.cfg := by cases b <;> rfl
@[simp] theorem setBuf_outb (s : State) (b : Buffer) (m : Memory) : (setBuf s b m).outb = s.outb := by cases b <;> rfl
@[simp] theorem setBuf_inb (s : State) (b : Buffer) (m : Memory) : (setBuf s b m).inb = s.inb := by cases b <;> rfl
@[simp] theorem setBuf_ptr (s : State) (b : Buffer) (m : Memory) : (setBuf s b m).ptr = s.ptr := by cases b <;> rfl
@[simp] theorem setBuf_stat (s : State) (b : Buffer) (m : Memory) : (setBuf s b m).stat = s.stat := by cases b <;> rfl
@[simp] theorem setBuf_clk (s : State) (b : Buffer) (m : Memory) : (setBuf s b m).clk = s.clk := by cases b <;> rfl
@[simp] theorem setBuf_env (s : State) (b : Buffer) (m : Memory) : (setBuf s b m).env = s.env := by cases b <;> rfl
@[simp] theorem setBuf_host (s : State) (b : Buffer) (m : Memory) : (setBuf s b m).host = s.host := by cases b <;> rfl
@[simp] theorem setBuf_cobs (s : State) (b : Buffer) (m : Memory) : (setBuf s b m).cobs = s.cobs := by cases b <;> rfl
@[simp] theorem getBuf_setBuf_same (s : State) (b : Buffer) (m : Memory) : getBuf (setBuf s b m) b = m := by cases b <;> rfl
theorem getBuf_setBuf_ne (s : State) {b b' : Buffer} (m : Memory) (h : b' ≠ b) : getBuf (setBuf s b m) b' = getBuf s b' := by
  cases b <;> cases b' <;> first | rfl | exact absurd rfl h

/-! ## Updates that read an input first: `readMicros`, `clkSample`, `tAvailableForWrite`, `pollArrivals`, `advanceTx` -/

@[simp] theorem readMicros_params (s : State) : (readMicros s).2.params = s.params := by unfold readMicros; split <;> rfl
@[simp] theorem readMicros_cfg (s : State) : (readMicros s).2.cfg = s.cfg := by unfold readMicros; split <;> rfl
@[simp] theorem readMicros_outb (s : State) : (readMicros s).2.outb = s.outb := by unfold readMicros; split <;> rfl
@[simp] theorem readMicros_inb (s : State) : (readMicros s).2.inb = s.inb := by unfold readMicros; split <;> rfl
@[simp] theorem readMicros_ptr (s : State) : (readMicros s).2.ptr = s.ptr := by unfold readMicros; split <;> rfl
@[simp] theorem readMicros_stat (s : State) : (readMicros s).2.stat = s.stat := by unfold readMicros; split <;> rfl
@[simp] theorem readMicros_clk (s : State) : (readMicros s).2.clk = s.clk := by unfold readMicros; split <;> rfl
@[simp] theorem readMicros_buf (s : State) : (readMicros s).2.buf = s.buf := by unfold readMicros; split <;> rfl
@[simp] theorem readMicros_env_rxFifo (s : State) : (readMicros s).2.env.rxFifo = s.env.rxFifo := by unfold readMicros; split <;> rfl
@[simp] theorem readMicros_env_arrivals (s : State) : (readMicros s).2.env.arrivals = s.env.arrivals := by unfold readMicros; split <;> rfl
@[simp] theorem readMicros_env_txFifo (s : State) : (readMicros s).2.env.txFifo = s.env.txFifo := by unfold readMicros; split <;> rfl
@[simp] theorem readMicros_env_writeSpace (s : State) : (readMicros s).2.env.writeSpace = s.env.writeSpace := by unfold readMicros; split <;> rfl
@[simp] theorem readMicros_env_spaceQueries (s : State) : (readMicros s).2.env.spaceQueries = s.env.spaceQueries := by unfold readMicros; split <;> rfl
@[simp] theorem readMicros_env_baud (s : State) : (readMicros s).2.env.baud = s.env.baud := by unfold readMicros; split <;> rfl
@[simp] theorem readMicros_env_resets (s : State) : (readMicros s).2.env.resets = s.env.resets := by unfold readMicros; split <;> rfl
@[simp] theorem readMicros_host (s : State) : (readMicros s).2.host = s.host := by unfold readMicros; split <;> rfl
@[simp] theorem readMicros_cobs (s : State) : (readMicros s).2.cobs = s.cobs := by unfold readMicros; split <;> rfl

@[simp] theorem tAvailableForWrite_params (s : State) : (tAvailableForWrite s).2.params = s.params := by unfold tAvailableForWrite; split <;> rfl
@[simp] theorem tAvailableForWrite_cfg (s : State) : (tAvailableForWrite s).2.cfg = s.cfg := by unfold tAvailableForWrite; split <;> rfl
@[simp] theorem tAvailableForWrite_outb (s : State) : (tAvailableForWrite s).2.outb = s.outb := by unfold tAvailableForWrite; split <;> rfl
@[simp] theorem tAvailableForWrite_inb (s : State) : (tAvailableForWrite s).2.inb = s.inb := by unfold tAvailableForWrite; split <;> rfl
@[simp] theorem tAvailableForWrite_ptr (s : State) : (tAvailableForWrite s).2.ptr = s.ptr := by unfold tAvailableForWrite; split <;> rfl
@[simp] theorem tAvailableForWrite_stat (s : State) : (tAvailableForWrite s).2.stat = s.stat := by unfold tAvailableForWrite; split <;> rfl
@[simp] theorem tAvailableForWrite_clk (s : State) : (tAvailableForWrite s).2.clk = s.clk := by unfold tAvailableForWrite; split <;> rfl
@[simp] theorem tAvailableForWrite_buf (s : State) : (tAvailableForWrite s).2.buf = s.buf := by unfold tAvailableForWrite; split <;> rfl
@[simp] theorem tAvailableForWrite_env_rxFifo (s : State) : (tAvailableForWrite s).2.env.rxFifo = s.env.rxFifo := by unfold tAvailableForWrite; split <;> rfl
@[simp] theorem tAvailableForWrite_env_arrivals (s : State) : (tAvailableForWrite s).2.env.arrivals = s.env.arrivals := by unfold tAvailableForWrite; split <;> rfl
@[simp] theorem tAvailableForWrite_env_txFifo (s : State) : (tAvailableForWrite s).2.env.txFifo = s.env.txFifo := by unfold tAvailableForWrite; split <;> rfl
@[simp] theorem tAvailableForWrite_env_baud (s : State) : (tAvailableForWrite s).2.env.baud = s.env.baud := by unfold tAvailableForWrite; split <;> rfl
@[simp] theorem tAvailableForWrite_env_micros (s : State) : (tAvailableForWrite s).2.env.micros = s.env.micros := by unfold tAvailableForWrite; split <;> rfl
@[simp] theorem tAvailableForWrite_env_microsReads (s : State) : (tAvailableForWrite s).2.env.microsReads = s.env.microsReads := by unfold tAvailableForWrite; split <;> rfl
@[simp] theorem tAvailableForWrite_env_resets (s : State) : (tAvailableForWrite s).2.env.resets = s.env.resets := by unfold tAvailableForWrite; split <;> rfl
@[simp] theorem tAvailableForWrite_host (s : State) : (tAvailableForWrite s).2.host = s.host := by unfold tAvailableForWrite; split <;> rfl
@[simp] theorem tAvailableForWrite_cobs (s : State) : (tAvailableForWrite s).2.cobs = s.cobs := by unfold tAvailableForWrite; split <;> rfl

@[simp] theorem pollArrivals_params (s : State) : (pollArrivals s).params = s.params := by unfold pollArrivals; split <;> rfl
@[simp] theorem pollArrivals_cfg (s : State) : (pollArrivals s).cfg = s.cfg := by unfold pollArrivals; split <;> rfl
@[simp] theorem pollArrivals_outb (s : State) : (pollArrivals s).outb = s.outb := by unfold pollArrivals; split <;> rfl
@[simp] theorem pollArrivals_inb (s : State) : (pollArrivals s).inb = s.inb := by unfold pollArrivals; split <;> rfl
@[simp] theorem pollArrivals_ptr (s : State) : (pollArrivals s).ptr = s.ptr := by unfold pollArrivals; split <;> rfl
@[simp] theorem pollArrivals_stat (s : State) : (pollArrivals s).stat = s.stat := by unfold pollArrivals; split <;> rfl
@[simp] theorem pollArrivals_clk (s : State) : (pollArrivals s).clk = s.clk := by unfold pollArrivals; split <;> rfl
@[simp] theorem pollArrivals_buf (s : State) : (pollArrivals s).buf = s.buf := by unfold pollArrivals; split <;> rfl
@[simp] theorem pollArrivals_env_txFifo (s : State) : (pollArrivals s).env.txFifo = s.env.txFifo := by unfold pollArrivals; split <;> rfl
@[simp] theorem pollArrivals_env_writeSpace (s : State) : (pollArrivals s).env.writeSpace = s.env.writeSpace := by unfold pollArrivals; split <;> rfl
@[simp] theorem pollArrivals_env_spaceQueries (s : State) : (pollArrivals s).env.spaceQueries = s.env.spaceQueries := by unfold pollArrivals; split <;> rfl
@[simp] theorem pollArrivals_env_baud (s : State) : (pollArrivals s).env.baud = s.env.baud := by unfold pollArrivals; split <;> rfl
@[simp] theorem pollArrivals_env_micros (s : State) : (pollArrivals s).env.micros = s.env.micros := by unfold pollArrivals; split <;> rfl
@[simp] theorem pollArrivals_env_microsReads (s : State) : (pollArrivals s).env.microsReads = s.env.microsReads := by unfold pollArrivals; split <;> rfl
@[simp] theorem pollArrivals_env_resets (s : State) : (pollArrivals s).env.resets = s.env.resets := by unfold pollArrivals; split <;> rfl
@[simp] theorem pollArrivals_host (s : State) : (pollArrivals s).host = s.host := by unfold pollArrivals; split <;> rfl
@[simp] theorem pollArrivals_cobs (s : State) : (pollArrivals s).cobs = s.cobs := by unfold pollArrivals; split <;> rfl

@[simp] theorem advanceTx_params (k : Nat) (s : State) : (advanceTx k s).params = s.params := by simp only [advanceTx]; split <;> rfl
@[simp] theorem advanceTx_cfg (k : Nat) (s : State) : (advanceTx k s).cfg = s.cfg := by simp only [advanceTx]; split <;> rfl
@[simp] theorem advanceTx_outb (k : Nat) (s : State) : (advanceTx k s).outb = s.outb := by simp only [advanceTx]; split <;> rfl
@[simp] theorem advanceTx_inb (k : Nat) (s : State) : (advanceTx k s).inb = s.inb := by simp only [advanceTx]; split <;> rfl
@[simp] theorem advanceTx_stat (k : Nat) (s : State) : (advanceTx k s).stat = s.stat := by simp only [advanceTx]; split <;> rfl
@[simp] theorem advanceTx_clk (k : Nat) (s : State) : (advanceTx k s).clk = s.clk := by simp only [advanceTx]; split <;> rfl
@[simp] theorem advanceTx_buf (k : Nat) (s : State) : (advanceTx k s).buf = s.buf := by simp only [advanceTx]; split <;> rfl
@[simp] theorem advanceTx_env (k : Nat) (s : State) : (advanceTx k s).env = s.env := by simp only [advanceTx]; split <;> rfl
@[simp] theorem advanceTx_host (k : Nat) (s : State) : (advanceTx k s).host = s.host := by simp only [advanceTx]; split <;> rfl
@[simp] theorem advanceTx_cobs (k : Nat) (s : State) : (advanceTx k s).cobs = s.cobs := by simp only [advanceTx]; split <;> rfl
@[simp] theorem advanceTx_ptr_rxWp (k : Nat) (s : State) : (advanceTx k s).ptr.rxWp = s.ptr.rxWp := by simp only [advanceTx]; split <;> rfl

@[simp] theorem clkSample_params (s : State) : (clkSample s).2.params = s.params := readMicros_params s
@[simp] theorem clkSample_cfg (s : State) : (clkSample s).2.cfg = s.cfg := readMicros_cfg s
@[simp] theorem clkSample_outb (s : State) : (clkSample s).2.outb = s.outb := readMicros_outb s
@[simp] theorem clkSample_inb (s : State) : (clkSample s).2.inb = s.inb := readMicros_inb s
@[simp] theorem clkSample_ptr (s : State) : (clkSample s).2.ptr = s.ptr := readMicros_ptr s
@[simp] theorem clkSample_stat (s : State) : (clkSample s).2.stat = s.stat := readMicros_stat s
@[simp] theorem clkSample_clk (s : State) : (clkSample s).2.clk = clkAdvance s.clk (readMicros s).1 := rfl
@[simp] theorem clkSample_buf (s : State) : (clkSample s).2.buf = s.buf := readMicros_buf s
@[simp] theorem clkSample_env (s : State) : (clkSample s).2.env = (readMicros s).2.env := rfl
@[simp] theorem clkSample_host (s : State) : (clkSample s).2.host = s.host := readMicros_host s
@[simp] theorem clkSample_cobs (s : State) : (clkSample s).2.cobs = s.cobs := readMicros_cobs s
@[simp] theorem clkSample_time (s : State) : (clkSample s).1 = clkTime (clkAdvance s.clk (readMicros s).1) := rfl

/-! ## `raiseError`, kind by kind (60_exceptions.md R241) -/

@[simp] theorem raiseError_malformedFrame (s : State) :
    raiseError .malformedFrame s = { s with stat := { s.stat with rxFail := countUp s.params s.stat.rxFail } } := rfl
@[simp] theorem raiseError_crcMismatch (s : State) :
    raiseError .crcMismatch s = { s with stat := { s.stat with rxFail := countUp s.params s.stat.rxFail } } := rfl
@[simp] theorem raiseError_inboundOverflow (s : State) : raiseError .inboundOverflow s = setRxWp s 0 := rfl
@[simp] theorem raiseError_ackForUnknown (s : State) : raiseError .ackForUnknown s = s := rfl
@[simp] theorem raiseError_retransmissionExhausted (s : State) :
    raiseError .retransmissionExhausted s = resetOutbound { s with stat := { s.stat with txFail := countUp s.params s.stat.txFail } } := rfl
@[simp] theorem raiseError_peerSilent (s : State) : raiseError .peerSilent s = s := rfl
@[simp] theorem raiseError_sendWhileBusy (s : State) : raiseError .sendWhileBusy s = s := rfl
@[simp] theorem raiseError_readWhileEmpty (s : State) : raiseError .readWhileEmpty s = s := rfl

end Sys2Proof.Machine
end

