-- ==== Sys2Proof/Laws/Ops.lean ====
section
/-! SUPPORT. For each shared operation, once, everything it can do. A proof cites these and does not unfold the operation. -/

namespace Sys2Proof.Machine

/-! ## The parameters in arithmetic (00_scope.md R8) -/

/-- A counter counted up fits its width, whatever it held. -/
theorem countUp_lt (p : Config.Params) (c : Counter) : countUp p c < 2 ^ p.cntW := Nat.mod_lt _ (by positivity)

/-- A counter in range goes up by one, or from its greatest value to 0. -/
theorem countUp_eq {p : Config.Params} {c : Counter} (h : c < 2 ^ p.cntW) :
    countUp p c = if c + 1 = 2 ^ p.cntW then 0 else c + 1 := by
  unfold countUp
  split
  · rename_i e
    rw [e, Nat.mod_self]
  · rename_i e
    exact Nat.mod_eq_of_lt (lt_of_le_of_ne h e)

@[simp] theorem statOp_exact_add (x y : Config.StatReal) : statOp .exact .add x y = x + y := rfl
@[simp] theorem statOp_exact_sub (x y : Config.StatReal) : statOp .exact .sub x y = x - y := rfl
@[simp] theorem statOp_exact_mul (x y : Config.StatReal) : statOp .exact .mul x y = x * y := rfl
@[simp] theorem statOp_exact_div (x y : Config.StatReal) : statOp .exact .div x y = x / y := rfl
@[simp] theorem statOfNat_zero (a : Config.StatArith) : statOfNat a 0 = 0 := by cases a <;> rfl
@[simp] theorem statOfNat_exact (n : Nat) : statOfNat .exact n = (n : Config.StatReal) := by
  cases n with
  | zero => simp
  | succ n => rfl

/-- One sample into an average of exact rationals. -/
theorem ewma_exact (avg : Config.StatReal) (sample : Nat) : ewma .exact avg sample = avg + 1 / 100 * ((sample : Config.StatReal) - avg) := by
  simp [ewma, ewmaAlpha, Config.ewmaAlphaDivisor]

/-! ## Sequencing and ends -/

@[simp] theorem andThen_ok {α β : Type} (a : α) (k : α → Except Fault β) : andThen (.ok a) k = k a := rfl
@[simp] theorem andThen_error {α β : Type} (f : Fault) (k : α → Except Fault β) : andThen (.error f) k = .error f := rfl

/-- A sequence answers a value exactly when its first part does and the rest does on that. -/
theorem andThen_eq_ok {α β : Type} {r : Except Fault α} {k : α → Except Fault β} {t : β} :
    andThen r k = .ok t ↔ ∃ a, r = .ok a ∧ k a = .ok t := by
  cases r <;> simp [andThen]

@[simp] theorem finish_ok (s : State) : finish (.ok s) = .next s := rfl
@[simp] theorem finish_error (f : Fault) : finish (.error f) = .fault f := rfl

theorem finish_eq_next {r : Except Fault State} {t : State} : finish r = .next t ↔ r = .ok t := by
  cases r <;> simp [finish]

theorem finish_ne_refused (r : Except Fault State) (w : Refusal) : finish r ≠ .refused w := by
  cases r <;> simp [finish]

theorem whenConfigured_eq_next {s t : State} {r : Host.Outcome State Fault Refusal} :
    whenConfigured s r = .next t ↔ s.cfg.configured = true ∧ r = .next t := by
  unfold whenConfigured
  split <;> simp_all

theorem whenInForm_eq_next {ok : Bool} {n : String} {t : State} {r : Host.Outcome State Fault Refusal} :
    whenInForm ok n r = .next t ↔ ok = true ∧ r = .next t := by
  unfold whenInForm
  split <;> simp_all

/-! ## Operand forms, with the constants as numbers -/

theorem baudInRange_iff {b : Nat} : baudInRange b = true ↔ 10 ≤ b ∧ b ≤ 10000000 := by
  rw [baudInRange, Bool.and_eq_true, decide_eq_true_iff, decide_eq_true_iff]
  rfl

theorem wf_rxFrame_iff {n : Nat} {now : Time} : (Instr.rxFrame n now).wf = true ↔ 1 ≤ n ∧ n ≤ 256 := by
  rw [Instr.wf, Bool.and_eq_true, decide_eq_true_iff, decide_eq_true_iff]
  rfl

theorem wf_dataHandling_iff {q : Byte} {d : List Byte} {now : Time} :
    (Instr.dataHandling q d now).wf = true ↔ 5 ≤ d.length ∧ d.length ≤ 252 := by
  rw [Instr.wf, Bool.and_eq_true, decide_eq_true_iff, decide_eq_true_iff]
  rfl

theorem wf_loadFrame_iff {msg : List Byte} : (Instr.loadFrame msg).wf = true ↔ msg.length ≤ 248 := by
  rw [Instr.wf, decide_eq_true_iff]
  rfl

theorem wf_frameShort_iff {d : List Byte} : (Instr.frameShort d).wf = true ↔ d.length < 4 := by
  rw [Instr.wf, decide_eq_true_iff]
  rfl

theorem wf_frameData_iff {msg : List Byte} {a o : Byte} {c : U16} :
    (Instr.frameData msg a o c).wf = true ↔ 1 ≤ msg.length ∧ msg.length ≤ 248 := by
  rw [Instr.wf, Bool.and_eq_true, decide_eq_true_iff, decide_eq_true_iff]
  rfl

theorem wf_frameLong_iff {d : List Byte} : (Instr.frameLong d).wf = true ↔ 252 < d.length := by
  rw [Instr.wf, decide_eq_true_iff]
  rfl

theorem wf_cobsRun_iff {c : Byte} : (Instr.cobsRun c).wf = true ↔ c ≠ 0x00#8 ∧ c ≠ 0xFF#8 := by
  simp [Instr.wf]

/-! ## Buffers -/

theorem memRead_ok {s : State} {b : Buffer} {i n : Nat} (h : i + n ≤ capacity b) :
    memRead s b i n = .ok (memReadBytes (getBuf s b) i n) := if_pos h

theorem memRead_eq_ok {s : State} {b : Buffer} {i n : Nat} {bs : List Byte} :
    memRead s b i n = .ok bs ↔ i + n ≤ capacity b ∧ bs = memReadBytes (getBuf s b) i n := by
  unfold memRead
  split <;> simp_all [eq_comm]

theorem memWrite_ok {s : State} {b : Buffer} {i : Nat} {v : List Byte} (h : i + v.length ≤ capacity b) :
    memWrite s b i v = .ok (setBuf s b (memWriteBytes (getBuf s b) i v)) := if_pos h

theorem memWrite_eq_ok {s t : State} {b : Buffer} {i : Nat} {v : List Byte} :
    memWrite s b i v = .ok t ↔ i + v.length ≤ capacity b ∧ t = setBuf s b (memWriteBytes (getBuf s b) i v) := by
  unfold memWrite
  split <;> simp_all [eq_comm]

/-! ## The clock -/

/-- A composed time as a number: the overflow count in the high half (42_clock.md R142). -/
theorem composeTime_toNat (o c : U32) : (composeTime o c).toNat = o.toNat * 2 ^ 32 + c.toNat := by
  rw [composeTime, BitVec.toNat_append, ← Nat.shiftLeft_add_eq_or_of_lt c.isLt, Nat.shiftLeft_eq]

/-- Reading the counter changes the inputs only. -/
theorem readMicros_snd (s : State) : (readMicros s).2 = { s with env := (readMicros s).2.env } := by
  unfold readMicros
  split <;> rfl

/-- A sample is the advanced registers' time, and changes the registers and the inputs only (42_clock.md R141). -/
theorem clkSample_eq (s : State) : clkSample s =
    (clkTime (clkAdvance s.clk (readMicros s).1),
     { s with clk := clkAdvance s.clk (readMicros s).1, env := (readMicros s).2.env }) := by
  have h := readMicros_snd s
  unfold clkSample
  generalize readMicros s = r at h ⊢
  obtain ⟨cur, s1⟩ := r
  dsimp only at h ⊢
  rw [h]

/-- Asking for room changes the inputs only. -/
theorem tAvailableForWrite_snd (s : State) : (tAvailableForWrite s).2 = { s with env := (tAvailableForWrite s).2.env } := by
  unfold tAvailableForWrite
  split <;> rfl

/-- Asking what has arrived changes the inputs only. -/
theorem pollArrivals_eq (s : State) : pollArrivals s = { s with env := (pollArrivals s).env } := by
  unfold pollArrivals
  split <;> rfl

/-! ## Host operations -/

/-- `SEND` on a configured engine: the no-op of E7, or the message taken. -/
theorem sendMessage_cases (buf : List Byte) (s : State) :
    (s.outb.outgoingLen ≠ 0 ∧ sendMessage buf s = .ok s) ∨
    (s.outb.outgoingLen = 0 ∧ ∃ t, sendMessage buf s = .ok t ∧
      t = { setBuf (clkSample s).2 .outgoing (memWriteBytes (getBuf (clkSample s).2 .outgoing) 0 (sendTaken buf)) with
            outb := { s.outb with outgoingLen := BitVec.ofNat 8 (sendTaken buf).length, ourSeq := s.outb.ourSeq + 1,
                                  txStartTime := (clkSample s).1 } }) := by
  unfold sendMessage clearToSend
  by_cases h : s.outb.outgoingLen = 0
  · right
    refine ⟨h, _, ?_, rfl⟩
    have hlen : 0 + (sendTaken buf).length ≤ capacity .outgoing := by
      simp [sendTaken, capacity]
    have hc : (s.outb.outgoingLen == 0) = true := beq_iff_eq.2 h
    simp only [hc, if_true, acceptMessage, memWrite_ok hlen, andThen_ok, setBuf_outb, clkSample_outb]
  · left
    have hc : (s.outb.outgoingLen == 0) = false := beq_eq_false_iff_ne.2 h
    exact ⟨h, by simp only [hc, Bool.false_eq_true, if_false, raiseError_sendWhileBusy]⟩

/-- `READ` on a configured engine: the empty answer of E8, or the bytes of the held message. -/
theorem readMessage_cases (max : Nat) (s : State) :
    (s.inb.incomingLen = 0 ∧ readMessage max s = .ok (respond s (.bytesLen [] 0))) ∨
    (s.inb.incomingLen ≠ 0 ∧ readMessage max s =
      .ok (respond (releaseMessage s)
        (.bytesLen (firstBytes s .incoming (readCount s.inb.incomingLen max)) (readCount s.inb.incomingLen max)))) := by
  unfold readMessage clearToRead
  by_cases h : s.inb.incomingLen = 0
  · left
    have hc : ¬0 < s.inb.incomingLen := by simp [h]
    exact ⟨h, by simp only [hc, decide_false, Bool.false_eq_true, if_false, raiseError_readWhileEmpty]⟩
  · right
    have hpos : 0 < s.inb.incomingLen := by
      rw [BitVec.lt_def]
      have : s.inb.incomingLen.toNat ≠ 0 := fun e => h (by apply BitVec.eq_of_toNat_eq; simpa using e)
      simp
      omega
    have hk : 0 + readCount s.inb.incomingLen max ≤ capacity .incoming := by
      simp only [readCount, capacity]
      omega
    exact ⟨h, by simp only [hpos, decide_true, if_true, memRead_ok hk, andThen_ok, firstBytes]⟩

/-! ## The receive path -/

/-- What `ACK_HANDLING` can do. -/
theorem ackHandling_cases (a : Byte) (now : Time) (s : State) :
    (0 < s.outb.outgoingLen ∧ a = s.outb.ourSeq ∧ ackHandling a now s = messageAcknowledged now s) ∨
    (¬(0 < s.outb.outgoingLen ∧ a = s.outb.ourSeq) ∧ ackHandling a now s = s) := by
  unfold ackHandling
  split
  · rename_i h
    exact .inl ⟨h.1, h.2, rfl⟩
  · rename_i h
    exact .inr ⟨h, rfl⟩

/-- What `DATA_HANDLING` can do with a payload of at most 252 bytes. -/
theorem dataHandling_cases (q : Byte) {d : List Byte} (s : State) (hd : d.length ≤ Config.maxPayload) :
    (q = s.inb.peerSeq ∧ 0 < s.inb.incomingLen ∧ dataHandling q d s = .ok s) ∨
    (q = s.inb.peerSeq ∧ ¬0 < s.inb.incomingLen ∧ dataHandling q d s = .ok (setAckRequired s true)) ∨
    (q ≠ s.inb.peerSeq ∧ dataHandling q d s =
      .ok { setBuf s .incoming (memWriteBytes (getBuf s .incoming) 0 (payloadMsg d)) with
            inb := { s.inb with peerSeq := q, incomingLen := BitVec.ofNat 8 (payloadMsg d).length } }) := by
  unfold dataHandling
  by_cases hq : q = s.inb.peerSeq
  · by_cases hl : 0 < s.inb.incomingLen
    · exact .inl ⟨hq, hl, by simp only [if_pos hq, if_pos hl]⟩
    · exact .inr (.inl ⟨hq, hl, by simp only [if_pos hq, if_neg hl]⟩)
  · refine .inr (.inr ⟨hq, ?_⟩)
    have hlen : 0 + (payloadMsg d).length ≤ capacity .incoming := by
      simp only [payloadMsg, List.length_take, capacity, Config.maxMsg, Config.maxPayload] at *
      omega
    simp [hq, acceptInbound, memWrite_ok hlen]

/-- What a decoded payload can do: discarded for its length, discarded for its CRC, or a good frame. -/
theorem receivePayload_cases (d : List Byte) (now : Time) (s : State) :
    ((d.length < Config.hdrLen ∨ Config.maxPayload < d.length) ∧
      receivePayload d now s = .ok (raiseError .malformedFrame s)) ∨
    (Config.hdrLen ≤ d.length ∧ d.length ≤ Config.maxPayload ∧ payloadComputedCrc d ≠ payloadCrc d ∧
      receivePayload d now s = .ok (raiseError .crcMismatch s)) ∨
    (d.length = Config.hdrLen ∧ payloadComputedCrc d = payloadCrc d ∧
      receivePayload d now s = .ok (ackHandling (payloadAck d) now (goodFrame now s))) ∨
    (Config.hdrLen < d.length ∧ d.length ≤ Config.maxPayload ∧ payloadComputedCrc d = payloadCrc d ∧
      receivePayload d now s = dataHandling (payloadSeq d) d (ackHandling (payloadAck d) now (goodFrame now s))) := by
  unfold receivePayload
  by_cases h1 : d.length < Config.hdrLen ∨ Config.maxPayload < d.length
  · exact .inl ⟨h1, by simp only [if_pos h1]⟩
  · rw [not_or, not_lt, not_lt] at h1
    have h1' : ¬(d.length < Config.hdrLen ∨ Config.maxPayload < d.length) := by omega
    by_cases h2 : payloadComputedCrc d = payloadCrc d
    · by_cases h3 : Config.hdrLen < d.length
      · exact .inr (.inr (.inr ⟨h3, h1.2, h2, by simp only [if_neg h1', h2, ne_eq, not_true, if_false, if_pos h3]⟩))
      · exact .inr (.inr (.inl ⟨by omega, h2, by simp only [if_neg h1', h2, ne_eq, not_true, if_false, if_neg h3]⟩))
    · exact .inr (.inl ⟨h1.1, h1.2, h2, by simp only [if_neg h1', ne_eq, h2, not_false_iff, if_true]⟩)

/-- A decoded payload never goes out of a buffer's bounds. -/
theorem receivePayload_ok (d : List Byte) (now : Time) (s : State) : ∃ t, receivePayload d now s = .ok t := by
  rcases receivePayload_cases d now s with ⟨_, h⟩ | ⟨_, _, _, h⟩ | ⟨_, _, h⟩ | ⟨_, h2, _, h⟩
  · exact ⟨_, h⟩
  · exact ⟨_, h⟩
  · exact ⟨_, h⟩
  · rcases dataHandling_cases (payloadSeq d) (ackHandling (payloadAck d) now (goodFrame now s)) h2 with
      ⟨_, _, e⟩ | ⟨_, _, e⟩ | ⟨_, e⟩ <;> exact ⟨_, h.trans e⟩

/-- What `RX_BYTE` can do once the byte is stored: a frame, the wrap, or one more byte held. -/
theorem rxByte_cases {b : Byte} {now : Time} {s : State} (h : s.ptr.rxWp.toNat < Config.bufCap) :
    ∃ s1, s1 = setBuf s .rx (memWriteByte (getBuf s .rx) s.ptr.rxWp.toNat b) ∧
    ((b = Config.delim ∧ rxByte b now s = rxFrame (s.ptr.rxWp.toNat + 1) now (setRxWp s1 0)) ∨
     (b ≠ Config.delim ∧ s.ptr.rxWp.toNat + 1 = Config.bufCap ∧ rxByte b now s = .ok (setRxWp s1 0)) ∨
     (b ≠ Config.delim ∧ s.ptr.rxWp.toNat + 1 < Config.bufCap ∧ rxByte b now s = .ok (setRxWp s1 (s.ptr.rxWp + 1)))) := by
  refine ⟨_, rfl, ?_⟩
  have hcap : s.ptr.rxWp.toNat + [b].length ≤ capacity .rx := by simpa [capacity] using h
  have hwp : (s.ptr.rxWp + 1).toNat = s.ptr.rxWp.toNat + 1 := by
    simp only [Config.bufCap] at h
    rw [BitVec.toNat_add]
    simp
    omega
  unfold rxByte
  rw [memWrite_ok hcap]
  simp only [memWriteBytes, andThen_ok, setBuf_ptr, hwp]
  by_cases hb : b = Config.delim
  · exact .inl ⟨hb, by simp [hb]⟩
  · by_cases hc : s.ptr.rxWp.toNat + 1 = Config.bufCap
    · exact .inr (.inl ⟨hb, hc, by simp [hb, hc]⟩)
    · exact .inr (.inr ⟨hb, by omega, by simp [hb, hc]⟩)

/-! ## The transmit path -/

/-- The conditions of `TX_SELECT` in their order, and what each selects. -/
theorem txSelect_cases (now : Time) (s : State) :
    (outboundPending s = true ∧ txSelect now s = loadDataFrame now s) ∨
    (outboundPending s = false ∧ 0 < s.outb.outgoingLen ∧ retryExpired s now = true ∧ txSelect now s = branchRetransmit now s) ∨
    (outboundPending s = false ∧ ¬(0 < s.outb.outgoingLen ∧ retryExpired s now = true) ∧ s.inb.ackRequired = true ∧
      txSelect now s = branchAck now s) ∨
    (outboundPending s = false ∧ ¬(0 < s.outb.outgoingLen ∧ retryExpired s now = true) ∧ s.inb.ackRequired = false ∧
      keepaliveExpired s now = true ∧ txSelect now s = branchKeepalive now s) ∨
    (outboundPending s = false ∧ ¬(0 < s.outb.outgoingLen ∧ retryExpired s now = true) ∧ s.inb.ackRequired = false ∧
      keepaliveExpired s now = false ∧ txSelect now s = .ok s) := by
  unfold txSelect
  by_cases h1 : outboundPending s = true
  · exact .inl ⟨h1, by simp [h1, branchNewData]⟩
  · rw [Bool.not_eq_true] at h1
    by_cases h2 : 0 < s.outb.outgoingLen ∧ retryExpired s now = true
    · exact .inr (.inl ⟨h1, h2.1, h2.2, by simp only [h1, Bool.false_eq_true, if_false, if_pos h2]⟩)
    · by_cases h3 : s.inb.ackRequired = true
      · exact .inr (.inr (.inl ⟨h1, h2, h3, by simp only [h1, h2, h3, if_false, if_true, Bool.false_eq_true]⟩))
      · rw [Bool.not_eq_true] at h3
        by_cases h4 : keepaliveExpired s now = true
        · exact .inr (.inr (.inr (.inl ⟨h1, h2, h3, h4, by simp only [h1, h2, h3, h4, if_false, if_true, Bool.false_eq_true]⟩)))
        · rw [Bool.not_eq_true] at h4
          exact .inr (.inr (.inr (.inr ⟨h1, h2, h3, h4, by simp only [h1, h2, h3, h4, if_false, Bool.false_eq_true]⟩)))

/-- `LOAD_FRAME` when the frame fits. -/
theorem loadFrame_ok {msg : List Byte} {s : State} (h : (frameBytes msg s.inb.ackSeq s.outb.ourSeq).length ≤ Config.bufCap) :
    loadFrame msg s = .ok { setBuf s .tx (memWriteBytes (getBuf s .tx) 0 (frameBytes msg s.inb.ackSeq s.outb.ourSeq)) with
      ptr := { s.ptr with txLen := BitVec.ofNat 9 (frameBytes msg s.inb.ackSeq s.outb.ourSeq).length, txRp := 0 } } := by
  have hcap : 0 + (frameBytes msg s.inb.ackSeq s.outb.ourSeq).length ≤ capacity .tx := by simpa [capacity] using h
  simp [loadFrame, memWrite_ok hcap]

/-! ## Fetching -/

/-- What there is to do next. -/
theorem fetch_cases (s : State) :
    (s.host.resetRequest = true ∧ fetch s = .run .reset { s with host := { s.host with resetRequest := false } }) ∨
    (s.host.resetRequest = false ∧ s.cobs.active = true ∧ s.cobs.input = [] ∧ fetch s = .idle (cobsStop s.cobs.out s)) ∨
    (∃ b rest, s.host.resetRequest = false ∧ s.cobs.active = true ∧ s.cobs.input = b :: rest ∧
      fetch s = .run (decodeCobsCode b) { s with cobs := { s.cobs with input := rest } }) ∨
    (s.host.resetRequest = false ∧ s.cobs.active = false ∧ s.host.pending = [] ∧ fetch s = .idle s) ∨
    (∃ t ts i, s.host.resetRequest = false ∧ s.cobs.active = false ∧ s.host.pending = t :: ts ∧ decodeCommand t = .ok i ∧
      fetch s = .run i { s with host := { s.host with pending := ts } }) ∨
    (∃ t ts r, s.host.resetRequest = false ∧ s.cobs.active = false ∧ s.host.pending = t :: ts ∧ decodeCommand t = .error r ∧
      fetch s = .reject (refusalOf r)) := by
  unfold fetch
  cases hr : s.host.resetRequest
  · cases ha : s.cobs.active
    · cases hp : s.host.pending with
      | nil => exact .inr (.inr (.inr (.inl ⟨rfl, rfl, rfl, by simp [fetchCommand, hp]⟩)))
      | cons t ts =>
        cases hd : decodeCommand t with
        | ok i => exact .inr (.inr (.inr (.inr (.inl ⟨t, ts, i, rfl, rfl, rfl, hd, by simp [fetchCommand, hp, decode, hd]⟩))))
        | error r => exact .inr (.inr (.inr (.inr (.inr ⟨t, ts, r, rfl, rfl, rfl, hd, by simp [fetchCommand, hp, decode, hd]⟩))))
    · cases hi : s.cobs.input with
      | nil => exact .inr (.inl ⟨rfl, rfl, rfl, by simp [fetchCobsCode, hi, decode]⟩)
      | cons b rest => exact .inr (.inr (.inl ⟨b, rest, rfl, rfl, rfl, by simp [fetchCobsCode, hi, decode]⟩))
  · exact .inl ⟨rfl, by simp⟩

/-- A step is the fetched instruction's meaning, an idle step, or a refusal. -/
theorem step_eq (s : State) : step s = match fetch s with
    | .run i s' => exec i s'
    | .idle s' => .next s'
    | .reject r => .refused r := rfl

end Sys2Proof.Machine
end

