-- ==== Sys2Proof/Laws/Link.lean ====
section
/-! SUPPORT. What the steps of `TICK` that go through a buffer can do, once for each. -/

namespace Sys2Proof.Machine

/-! ## The COBS decoder, for the receive buffer -/

theorem cobsDecFrom_length_le (input : List Byte) (code : Byte) (block : Nat) :
    (cobsDecFrom input code block).length ≤ input.length := by
  induction input generalizing code block with
  | nil => simp [cobsDecFrom]
  | cons b bs ih =>
    unfold cobsDecFrom
    split
    · simp
    · split
      · have h := ih b (b.toNat - 1)
        split <;> simp <;> omega
      · have h := ih code (block - 1)
        simp
        omega

theorem cobsDec_length_le (input : List Byte) : (cobsDec input).length ≤ input.length := cobsDecFrom_length_le input _ _

/-- `RX_FRAME` of at most 256 bytes: the decoded bytes overwrite the start of the buffer, then the payload is acted on. -/
theorem rxFrame_eq {n : Nat} (now : Time) (s : State) (h : n ≤ Config.bufCap) :
    rxFrame n now s = receivePayload (cobsDec (memReadBytes s.buf.rx 0 n)) now
      (setBuf s .rx (memWriteBytes s.buf.rx 0 (cobsDec (memReadBytes s.buf.rx 0 n)))) := by
  have hr : 0 + n ≤ capacity .rx := by simpa [capacity] using h
  have hl := cobsDec_length_le (memReadBytes s.buf.rx 0 n)
  rw [memReadBytes_length] at hl
  have hw : 0 + (cobsDec (memReadBytes s.buf.rx 0 n)).length ≤ capacity .rx := by
    simp only [capacity]
    omega
  rw [rxFrame, memRead_ok hr, andThen_ok]
  simp only [getBuf]
  rw [memWrite_ok hw, andThen_ok]
  rfl

/-- The receiver's action on a payload leaves alone all but the counters, the two halves' registers and the inbound stash. -/
theorem receivePayload_keeps {d : List Byte} {now : Time} {s t : State} (h : receivePayload d now s = .ok t) :
    t.params = s.params ∧ t.cfg = s.cfg ∧ t.ptr = s.ptr ∧ t.clk = s.clk ∧ t.env = s.env ∧ t.host = s.host ∧ t.cobs = s.cobs ∧
    t.buf = { s.buf with incoming := t.buf.incoming } := by
  have ha : ∀ a u, (ackHandling a now u).params = u.params ∧ (ackHandling a now u).cfg = u.cfg ∧ (ackHandling a now u).ptr = u.ptr ∧ (ackHandling a now u).clk = u.clk ∧
      (ackHandling a now u).env = u.env ∧ (ackHandling a now u).host = u.host ∧ (ackHandling a now u).cobs = u.cobs ∧
      (ackHandling a now u).buf = u.buf := by
    intro a u
    rcases ackHandling_cases a now u with ⟨_, _, e⟩ | ⟨_, e⟩ <;> rw [e] <;> exact ⟨rfl, rfl, rfl, rfl, rfl, rfl, rfl, rfl⟩
  obtain ⟨h0, h1, h2, h3, h4, h5, h6, h7⟩ := ha (payloadAck d) (goodFrame now s)
  rcases receivePayload_cases d now s with ⟨_, e⟩ | ⟨_, _, _, e⟩ | ⟨_, _, e⟩ | ⟨_, hd, _, e⟩
  · obtain rfl := Except.ok.inj (e.symm.trans h)
    exact ⟨rfl, rfl, rfl, rfl, rfl, rfl, rfl, rfl⟩
  · obtain rfl := Except.ok.inj (e.symm.trans h)
    exact ⟨rfl, rfl, rfl, rfl, rfl, rfl, rfl, rfl⟩
  · obtain rfl := Except.ok.inj (e.symm.trans h)
    exact ⟨h0, h1, h2, h3, h4, h5, h6, by rw [h7]; rfl⟩
  · rcases dataHandling_cases (payloadSeq d) (ackHandling (payloadAck d) now (goodFrame now s)) hd with
      ⟨_, _, g⟩ | ⟨_, _, g⟩ | ⟨_, g⟩ <;> obtain rfl := Except.ok.inj ((e.trans g).symm.trans h)
    · exact ⟨h0, h1, h2, h3, h4, h5, h6, by rw [h7]; rfl⟩
    · exact ⟨h0, h1, h2, h3, h4, h5, h6, by simp only [setAckRequired]; rw [h7]; rfl⟩
    · exact ⟨h0, h1, h2, h3, h4, h5, h6, by simp only [setBuf]; rw [h7]; rfl⟩

/-! ## The transmit path -/

/-- Loading the data frame of the stash, when stash and frame fit their buffers. -/
theorem loadDataFrame_ok {now : Time} {s : State} (h : s.outb.outgoingLen.toNat ≤ Config.maxMsg)
    (hf : (frameBytes (memReadBytes s.buf.outgoing 0 s.outb.outgoingLen.toNat) s.inb.ackSeq s.outb.ourSeq).length ≤
      Config.bufCap) :
    ∃ s1, loadFrame (memReadBytes s.buf.outgoing 0 s.outb.outgoingLen.toNat)
        { s with outb := { s.outb with lastTxTime := now } } = .ok s1 ∧
      loadDataFrame now s = .ok (armRetry (frameLoaded now s1)) := by
  have hr : 0 + s.outb.outgoingLen.toNat ≤ capacity .outgoing := by simpa [capacity] using h
  obtain ⟨s1, hs⟩ : ∃ s1, loadFrame (memReadBytes s.buf.outgoing 0 s.outb.outgoingLen.toNat)
      { s with outb := { s.outb with lastTxTime := now } } = .ok s1 := ⟨_, loadFrame_ok hf⟩
  refine ⟨s1, hs, ?_⟩
  rw [loadDataFrame, memRead_ok hr, andThen_ok]
  simp only [getBuf]
  rw [hs, andThen_ok]

/-- `TX_PUSH`: nothing for an empty buffer, else the bytes there is room for. -/
theorem txPush_cases (s : State) (hcap : s.ptr.txLen.toNat ≤ Config.bufCap) (hrp : s.ptr.txRp.toNat ≤ s.ptr.txLen.toNat) :
    (s.ptr.txLen = 0 ∧ txPush s = .ok s) ∨
    (s.ptr.txLen ≠ 0 ∧ ∃ k, k = min (tAvailableForWrite s).1 (s.ptr.txLen.toNat - s.ptr.txRp.toNat) ∧
      txPush s = .ok (advanceTx k (tWrite { s with env := (tAvailableForWrite s).2.env }
        (memReadBytes s.buf.tx s.ptr.txRp.toNat k)))) := by
  by_cases h : s.ptr.txLen = 0
  · exact .inl ⟨h, by rw [txPush, if_pos h]⟩
  · refine .inr ⟨h, _, rfl, ?_⟩
    have he := tAvailableForWrite_snd s
    rw [txPush, if_neg h]
    generalize tAvailableForWrite s = r at he ⊢
    obtain ⟨space, s1⟩ := r
    dsimp only at he ⊢
    rw [he]
    have hb : s.ptr.txRp.toNat + min space (s.ptr.txLen.toNat - s.ptr.txRp.toNat) ≤ capacity .tx := by
      simp only [capacity]
      omega
    rw [memRead_ok hb, andThen_ok]
    rfl

end Sys2Proof.Machine
end

