-- ==== Sys2Proof/Laws/PerInstr.lean ====
section
/-! SUPPORT. Statements about every instruction as syntax, one lemma per constructor. -/

namespace Sys2Proof.Laws

/-- The shape of an instruction's encoding: a command word with its operand bytes, an encoded payload with its delimiter, one code
byte, or nothing for what has no encoding (30_encoding.md R80, R84, R96). -/
def EncodeShape.Statement (i : Instr) : Prop :=
  match encodingSpace i with
  | some .command => ∃ code operand, encode i = code :: operand ∧ 1 ≤ code.toNat ∧ code.toNat ≤ 13
  | some .wire => ∃ payload, encode i = Machine.cobsEnc payload ++ [Config.delim]
  | some .cobsCode => ∃ c, encode i = [c]
  | none => encode i = []

theorem EncodeShape.begin (baud : Nat) : EncodeShape.Statement (.begin baud) := ⟨_, _, rfl, by decide, by decide⟩
theorem EncodeShape.tick : EncodeShape.Statement .tick := ⟨_, _, rfl, by decide, by decide⟩
theorem EncodeShape.send (buf : List Byte) : EncodeShape.Statement (.send buf) := ⟨_, _, rfl, by decide, by decide⟩
theorem EncodeShape.read (max : Nat) : EncodeShape.Statement (.read max) := ⟨_, _, rfl, by decide, by decide⟩
theorem EncodeShape.isOpen : EncodeShape.Statement .isOpen := ⟨_, _, rfl, by decide, by decide⟩
theorem EncodeShape.clearToSend : EncodeShape.Statement .clearToSend := ⟨_, _, rfl, by decide, by decide⟩
theorem EncodeShape.clearToRead : EncodeShape.Statement .clearToRead := ⟨_, _, rfl, by decide, by decide⟩
theorem EncodeShape.stats : EncodeShape.Statement .stats := ⟨_, _, rfl, by decide, by decide⟩
theorem EncodeShape.crc16 (s : List Byte) : EncodeShape.Statement (.crc16 s) := ⟨_, _, rfl, by decide, by decide⟩
theorem EncodeShape.cobsEnc (input : List Byte) : EncodeShape.Statement (.cobsEnc input) := ⟨_, _, rfl, by decide, by decide⟩
theorem EncodeShape.cobsDec (input : List Byte) : EncodeShape.Statement (.cobsDec input) := ⟨_, _, rfl, by decide, by decide⟩
theorem EncodeShape.clkSample : EncodeShape.Statement .clkSample := ⟨_, _, rfl, by decide, by decide⟩
theorem EncodeShape.backoff (retryCount : Nat) : EncodeShape.Statement (.backoff retryCount) := ⟨_, _, rfl, by decide, by decide⟩
theorem EncodeShape.avgRetryCount : EncodeShape.Statement .avgRetryCount := rfl
theorem EncodeShape.crcStep (crc : U16) (b : Byte) : EncodeShape.Statement (.crcStep crc b) := rfl
theorem EncodeShape.rxDrain (now : Time) : EncodeShape.Statement (.rxDrain now) := rfl
theorem EncodeShape.rxByte (b : Byte) (now : Time) : EncodeShape.Statement (.rxByte b now) := rfl
theorem EncodeShape.rxFrame (n : Nat) (now : Time) : EncodeShape.Statement (.rxFrame n now) := rfl
theorem EncodeShape.ackHandling (incomingAck : Byte) (now : Time) : EncodeShape.Statement (.ackHandling incomingAck now) := rfl
theorem EncodeShape.ewmaUpdate (now : Time) : EncodeShape.Statement (.ewmaUpdate now) := rfl
theorem EncodeShape.dataHandling (incomingSeq : Byte) (d : List Byte) (now : Time) : EncodeShape.Statement (.dataHandling incomingSeq d now) := rfl
theorem EncodeShape.txSelect (now : Time) : EncodeShape.Statement (.txSelect now) := rfl
theorem EncodeShape.loadFrame (msg : List Byte) : EncodeShape.Statement (.loadFrame msg) := rfl
theorem EncodeShape.txPush : EncodeShape.Statement .txPush := rfl
theorem EncodeShape.reset : EncodeShape.Statement .reset := rfl
theorem EncodeShape.frameShort (payload : List Byte) : EncodeShape.Statement (.frameShort payload) := ⟨_, rfl⟩
theorem EncodeShape.frameAckOnly (ackSeq ourSeq : Byte) (crc : U16) : EncodeShape.Statement (.frameAckOnly ackSeq ourSeq crc) := ⟨_, rfl⟩
theorem EncodeShape.frameData (msg : List Byte) (ackSeq ourSeq : Byte) (crc : U16) : EncodeShape.Statement (.frameData msg ackSeq ourSeq crc) := ⟨_, rfl⟩
theorem EncodeShape.frameLong (payload : List Byte) : EncodeShape.Statement (.frameLong payload) := ⟨_, rfl⟩
theorem EncodeShape.cobsDelim : EncodeShape.Statement .cobsDelim := ⟨_, rfl⟩
theorem EncodeShape.cobsRun (c : Byte) : EncodeShape.Statement (.cobsRun c) := ⟨_, rfl⟩
theorem EncodeShape.cobsFull : EncodeShape.Statement .cobsFull := ⟨_, rfl⟩

end Sys2Proof.Laws
end

