-- ==== Sys2Proof/Tests/Slice0.lean ====
section
/-! SUPPORT. Tests: each check of `Instr.wf`, one decoded word per constructor, small runs of one operation with the results of
95_test_vectors.md, and one witness for the hypotheses of each statement that has some. -/

open Sys2Proof Sys2Proof.Machine

namespace Sys2Proof.Tests

set_option Elab.async false

/-! ## Helpers -/

/-- The operation completes and `f` of the next state is `v`. -/
def gives {α : Type} [DecidableEq α] (o : Host.Outcome State Fault Refusal) (f : State → α) (v : α) : Bool :=
  match o with
  | .next t => decide (f t = v)
  | .fault _ => false
  | .refused _ => false

/-- The operation completes. -/
def completes (o : Host.Outcome State Fault Refusal) : Bool := gives o (fun _ => ()) ()

theorem exists_of_completes {o : Host.Outcome State Fault Refusal} (h : completes o = true) : ∃ t, o = .next t := by
  cases o with
  | next t => exact ⟨t, rfl⟩
  | fault f => cases h
  | refused r => cases h

/-- A fresh engine after `BEGIN(115200)`. -/
def ready : State := { State.reset with cfg := configFor 115200 }

/-- `s` when the counter reads `t` and the transport has room for 256 bytes. -/
def at_ (t : U32) (s : State) : State := { s with env := { s.env with micros := [t], writeSpace := [256] } }

/-- `s` with bytes waiting in the transport. -/
def inbound (bs : List Byte) (s : State) : State := { s with env := { s.env with rxFifo := bs } }

/-- `s` with one host transaction waiting. -/
def issued (t : List Byte) (s : State) : State := { s with host := { s.host with pending := [t] } }

/-- An instance with other parameters: OUR_SEQ_INIT 255, one bit counters, some other StatReal. -/
def odd : Config.Params := { ourSeqInit := 255, cntW := 1, statReal := .free 0, seqLegal := by decide, widthLegal := by decide }

/-- The message 01 02 03 pending, number 13, handed over at 1000 (vector H4). -/
def pending : State :=
  { ready with outb := { ready.outb with outgoingLen := 3, ourSeq := 13, txStartTime := 1000 }
               buf := { ready.buf with outgoing := [(0, 0x01#8), (1, 0x02#8), (2, 0x03#8)] } }

/-- The same message emitted once, at 1000 (vector T1's state). -/
def awaiting : State :=
  { pending with outb := { pending.outb with lastTxTime := 1000, lastTxOut := 1000, timeout := 5160 } }

/-- The message AA 00 BB held, number 13 (vector H6). -/
def held : State :=
  { ready with inb := { ready.inb with incomingLen := 3, peerSeq := 13 }
               buf := { ready.buf with incoming := [(0, 0xAA#8), (2, 0xBB#8)] } }

/-- The ack-only frame of number 12 half handed over. -/
def sending : State :=
  { ready with ptr := { ready.ptr with txLen := 6, txRp := 3 }
               buf := { ready.buf with tx := [(0, 0x01#8), (1, 0x04#8), (2, 0x0C#8), (3, 0xDC#8), (4, 0x83#8)] } }

/-- The decoder run one block at a time, its input placed. -/
def decoding (input : List Byte) : State :=
  { ready with cobs := { active := true, input := input, out := [], code := 0xFF#8 } }

/-! ## WellFormed: a term each check refuses -/

theorem test_wf_begin : (Instr.begin 9).wf = false ∧ (Instr.begin 10000001).wf = false := by decide
theorem test_wf_rxFrame : (Instr.rxFrame 0 0).wf = false ∧ (Instr.rxFrame 257 0).wf = false := by decide
theorem test_wf_dataHandling : (Instr.dataHandling 1 (List.replicate 4 0) 0).wf = false ∧
    (Instr.dataHandling 1 (List.replicate 253 0) 0).wf = false := by decide +kernel
theorem test_wf_loadFrame : (Instr.loadFrame (List.replicate 249 0)).wf = false := by decide +kernel
theorem test_wf_frameShort : (Instr.frameShort [1, 2, 3, 4]).wf = false := by decide
theorem test_wf_frameData : (Instr.frameData [] 1 2 3).wf = false ∧
    (Instr.frameData (List.replicate 249 0) 1 2 3).wf = false := by decide +kernel
theorem test_wf_frameLong : (Instr.frameLong (List.replicate 252 0)).wf = false := by decide +kernel
theorem test_wf_cobsRun : (Instr.cobsRun 0x00#8).wf = false ∧ (Instr.cobsRun 0xFF#8).wf = false := by decide

/-! ## Decode: a word written out from the spec's encoding of each constructor (30_encoding.md R84, R96; frames from
95_test_vectors.md) -/

theorem test_decode_begin : decode .command [0x01#8, 0x00#8, 0xC2#8, 0x01#8] = .ok (.begin 115200, []) := by decide +kernel
theorem test_decode_tick : decode .command [0x02#8] = .ok (.tick, []) := by decide +kernel
theorem test_decode_send : decode .command [0x03#8, 0x01#8, 0x02#8] = .ok (.send [1, 2], []) := by decide +kernel
theorem test_decode_read : decode .command [0x04#8, 0xFF#8] = .ok (.read 255, []) := by decide +kernel
theorem test_decode_isOpen : decode .command [0x05#8] = .ok (.isOpen, []) := by decide +kernel
theorem test_decode_clearToSend : decode .command [0x06#8] = .ok (.clearToSend, []) := by decide +kernel
theorem test_decode_clearToRead : decode .command [0x07#8] = .ok (.clearToRead, []) := by decide +kernel
theorem test_decode_stats : decode .command [0x08#8] = .ok (.stats, []) := by decide +kernel
theorem test_decode_crc16 : decode .command [0x09#8, 0x31#8] = .ok (.crc16 [0x31], []) := by decide +kernel
theorem test_decode_cobsEnc : decode .command [0x0A#8, 0x00#8] = .ok (.cobsEnc [0], []) := by decide +kernel
theorem test_decode_cobsDec : decode .command [0x0B#8, 0x01#8] = .ok (.cobsDec [1], []) := by decide +kernel
theorem test_decode_clkSample : decode .command [0x0C#8] = .ok (.clkSample, []) := by decide +kernel
theorem test_decode_backoff : decode .command [0x0D#8, 0x0A#8] = .ok (.backoff 10, []) := by decide +kernel
theorem test_decode_frameShort : decode .wire [0x03#8, 0x11#8, 0x22#8, 0x00#8] = .ok (.frameShort [0x11, 0x22], []) := by
  decide +kernel
theorem test_decode_frameAckOnly : decode .wire [0x01#8, 0x04#8, 0x0C#8, 0xDC#8, 0x83#8, 0x00#8] =
    .ok (.frameAckOnly 0x00 0x0C 0xDC83, []) := by decide +kernel
theorem test_decode_frameData : decode .wire [0x04#8, 0x01#8, 0x02#8, 0x03#8, 0x04#8, 0x0D#8, 0xDE#8, 0xC8#8, 0x00#8, 0x07#8] =
    .ok (.frameData [1, 2, 3] 0x00 0x0D 0xDEC8, [0x07]) := by decide +kernel
theorem test_decode_frameLong : decode .wire (List.replicate 254 0x01#8 ++ [0x00#8]) =
    .ok (.frameLong (List.replicate 253 0x00#8), []) := by decide +kernel
theorem test_decode_cobsDelim : decode .cobsCode [0x00#8] = .ok (.cobsDelim, []) := by decide +kernel
theorem test_decode_cobsRun : decode .cobsCode [0xFE#8, 0x01#8] = .ok (.cobsRun 0xFE, [0x01]) := by decide +kernel
theorem test_decode_cobsFull : decode .cobsCode [0xFF#8] = .ok (.cobsFull, []) := by decide +kernel

theorem test_tableWord : decodeTableWord 4 0x2 = some .tick ∧ decodeTableWord 4 0xD = some (.backoff 0) ∧
    decodeTableWord 8 0xFF = some .cobsFull ∧ decodeTableWord 4 0xE = none ∧ decodeTableWord 8 0 = some .cobsDelim := by
  decide +kernel

/-! ## One operation each (95_test_vectors.md unless said otherwise) -/

/-- G1. -/
theorem test_begin : gives (exec (.begin 115200) State.reset)
    (fun t => (t.cfg.usPerByte.toNat, t.cfg.retryAbsMax.toNat, t.cfg.keepaliveTxInterval.toNat, t.cfg.keepaliveRxInterval.toNat))
    (86, 8600000, 2150000, 4300000) = true := by decide +kernel
/-- G2. -/
theorem test_begin_9600 : gives (exec (.begin 9600) State.reset)
    (fun t => (t.cfg.configured, t.cfg.usPerByte.toNat, t.cfg.keepaliveTxInterval.toNat)) (true, 1041, 26025000) = true := by
  decide +kernel
/-- X1. -/
theorem test_tick_receives : gives (exec .tick (at_ 2000 (inbound [0x04, 0x01, 0x02, 0x03, 0x04, 0x0D, 0xDE, 0xC8, 0x00] ready)))
    (fun t => (t.stat.rxOk, t.inb.lastRx.toNat, t.inb.peerSeq.toNat, t.inb.incomingLen.toNat, firstBytes t .incoming 3))
    (1, 2000, 13, 3, [1, 2, 3]) = true := by decide +kernel
/-- The tick of P1 that emits the message: 45_link_tx.md R211, R224. -/
theorem test_tick_emits : gives (exec .tick (at_ 1000 pending))
    (fun t => (t.env.txFifo, t.ptr.txLen.toNat, t.outb.lastTxTime.toNat, t.outb.timeout.toNat))
    ([0x04, 0x01, 0x02, 0x03, 0x04, 0x0D, 0xDE, 0xC8, 0x00], 0, 1000, 5160) = true := by decide +kernel
/-- H1. -/
theorem test_send_truncates : gives (exec (.send (List.replicate 300 0x07)) (at_ 10 ready))
    (fun t => (t.outb.outgoingLen.toNat, t.outb.ourSeq.toNat, t.outb.txStartTime.toNat, byteAt t .outgoing 247))
    (248, 13, 10, 0x07) = true := by decide +kernel
/-- H4. -/
theorem test_send_busy : gives (exec (.send [4]) (at_ 1001 pending))
    (fun t => (t.outb.ourSeq.toNat, firstBytes t .outgoing 3, t.outb.txStartTime.toNat, t.clk.last.toNat))
    (13, [1, 2, 3], 1000, 0) = true := by decide +kernel
/-- H6. -/
theorem test_read : gives (exec (.read 2) held)
    (fun t => (t.host.response, t.inb.incomingLen.toNat, t.inb.ackSeq.toNat, t.inb.ackRequired))
    (.bytesLen [0xAA, 0x00] 2, 0, 13, true) = true := by decide +kernel
/-- H5. -/
theorem test_read_empty : gives (exec (.read 255) ready) (fun t => (t.host.response, t.inb.ackRequired))
    (.bytesLen [] 0, false) = true := by decide +kernel
/-- H8. -/
theorem test_isOpen : gives (exec .isOpen (at_ 4300000 ready)) (fun t => t.host.response) (.bit true) = true := by decide +kernel
theorem test_isOpen_closed : gives (exec .isOpen (at_ 4300001 ready)) (fun t => t.host.response) (.bit false) = true := by
  decide +kernel
/-- H3. -/
theorem test_clearToSend : gives (exec .clearToSend ready) (fun t => t.host.response) (.bit true) = true := by decide +kernel
theorem test_clearToSend_busy : gives (exec .clearToSend pending) (fun t => t.host.response) (.bit false) = true := by decide +kernel
theorem test_clearToRead : gives (exec .clearToRead ready) (fun t => t.host.response) (.bit false) = true := by decide +kernel
theorem test_clearToRead_held : gives (exec .clearToRead held) (fun t => t.host.response) (.bit true) = true := by decide +kernel
/-- H9. -/
theorem test_stats : gives (exec .stats ready) (fun t => t.host.response)
    (.stats { rxOk := 0, rxFail := 0, txOk := 0, txFail := 0, txTotalRetries := 0, maxRetryIntervalIssued := 0,
              avgTotalTransmitTime := 0, avgWireTime := 0, avgRetryCount := 0 }) = true := by decide +kernel
/-- CR2, the check value, and CR1. -/
theorem test_crc16 : gives (exec (.crc16 [0x31, 0x32, 0x33, 0x34, 0x35, 0x36, 0x37, 0x38, 0x39]) ready)
    (fun t => t.host.response) (.u16 0x29B1) = true := by decide +kernel
theorem test_crc16_empty : gives (exec (.crc16 []) ready) (fun t => t.host.response) (.u16 0xFFFF) = true := by decide +kernel
/-- CE5 and CE11. -/
theorem test_cobsEnc : gives (exec (.cobsEnc [0x11, 0x22, 0x00, 0x33]) ready) (fun t => t.host.response)
    (.bytes [0x03, 0x11, 0x22, 0x02, 0x33]) = true := by decide +kernel
theorem test_cobsEnc_full : gives (exec (.cobsEnc (List.replicate 254 0x01)) ready) (fun t => t.host.response)
    (.bytes (0xFF :: List.replicate 254 0x01 ++ [0x01])) = true := by decide +kernel
/-- CE5 and M9. -/
theorem test_cobsDec : gives (exec (.cobsDec [0x03, 0x11, 0x22, 0x02, 0x33, 0x00]) ready) (fun t => t.host.response)
    (.bytesLen [0x11, 0x22, 0x00, 0x33] 4) = true := by decide +kernel
theorem test_cobsDec_cut : gives (exec (.cobsDec [0x02, 0x11, 0xFF, 0x22, 0x33, 0x00]) ready) (fun t => t.host.response)
    (.bytesLen [0x11, 0x00, 0x22, 0x33] 4) = true := by decide +kernel
/-- CK3. -/
theorem test_clkSample : gives (exec .clkSample (at_ 0x10 { ready with clk := { last := 0xFFFFFF00, overflows := 0 } }))
    (fun t => (t.host.response, t.clk)) (.time 0x100000010, { last := 0x10, overflows := 1 }) = true := by decide +kernel
/-- CK1, sample 3: an equal reading is no wrap. -/
theorem test_clkSample_equal : gives (exec .clkSample (at_ 5 { ready with clk := { last := 5, overflows := 0 } }))
    (fun t => t.host.response) (.time 5) = true := by decide +kernel
/-- 45_link_tx.md R222: the tables for `tx_len` 9 and 254. -/
theorem test_backoff : gives (exec (.backoff 10) { ready with ptr := { ready.ptr with txLen := 9 } }) (fun t => t.host.response)
    (.time 5283840) = true := by decide +kernel
theorem test_backoff_capped : gives (exec (.backoff 7) { ready with ptr := { ready.ptr with txLen := 254 } })
    (fun t => t.host.response) (.time 8600000) = true := by decide +kernel
/-- H10: 11 / (0 + 1). -/
theorem test_avgRetryCount : gives (exec .avgRetryCount { ready with stat := { ready.stat with txFail := 1, txTotalRetries := 11 } })
    (fun t => t.host.response) (.real 11) = true := by decide +kernel
/-- 41_crc.md R121, the worked example. -/
theorem test_crcStep : gives (exec (.crcStep 0xFFFF 0x01) ready) (fun t => t.host.response) (.u16 0xF1D1) = true := by decide +kernel
/-- 41_crc.md R123: 256 entries. -/
theorem test_crcTable_length : crcTable.length = 256 := by decide +kernel
/-- X7's first two frames in one drain. -/
theorem test_rxDrain : gives (exec (.rxDrain 3000) (inbound [0x04, 0x01, 0x02, 0x03, 0x04, 0x0D, 0xDE, 0xC8, 0x00,
      0x05, 0x0D, 0x0C, 0xAA, 0xDE, 0x00] ready))
    (fun t => (t.stat.rxOk, t.stat.rxFail, t.inb.lastRx.toNat, t.env.rxFifo)) (1, 1, 3000, []) = true := by
  decide +kernel
/-- O2: the 256th byte wraps the pointer and counts nothing. -/
theorem test_rxByte_wraps : gives (exec (.rxByte 0x01 1000) { ready with ptr := { ready.ptr with rxWp := 255 } })
    (fun t => (t.ptr.rxWp.toNat, t.stat.rxFail, byteAt t .rx 255)) (0, 0, 0x01) = true := by decide +kernel
/-- X3: a bare delimiter. -/
theorem test_rxByte_delimiter : gives (exec (.rxByte 0x00 2000) ready)
    (fun t => (t.ptr.rxWp.toNat, t.stat.rxFail, t.inb.lastRx.toNat)) (0, 1, 0) = true := by decide +kernel
/-- X4: decoded in place, length 2. -/
theorem test_rxFrame : gives (exec (.rxFrame 4 2000) { ready with buf := { ready.buf with rx := [(0, 0x03#8), (1, 0x11#8), (2, 0x22#8)] } })
    (fun t => (t.stat.rxFail, firstBytes t .rx 2)) (1, [0x11, 0x22]) = true := by decide +kernel
/-- 44_link_rx.md R189 and R190, the worked examples (the averages of H11). -/
theorem test_ackHandling : gives (exec (.ackHandling 13 8000) awaiting)
    (fun t => (t.stat.txOk, t.outb.outgoingLen.toNat, t.outb.lastTxTime.toNat, t.stat.avgTotalTransmitTime, t.outb.timeout.toNat))
    (1, 0, 0, 70, 5160) = true := by decide +kernel
/-- X13. -/
theorem test_ackHandling_ignored : gives (exec (.ackHandling 12 2000) ready) (fun t => t.stat.txOk) 0 = true := by decide +kernel
/-- 44_link_rx.md R190: 3000 and 258 from averages 0. -/
theorem test_ewmaUpdate : gives (exec (.ewmaUpdate 4000) awaiting) (fun t => (t.stat.avgTotalTransmitTime, t.stat.avgWireTime))
    (30, mkRat 258 100) = true := by decide +kernel
/-- X11: an unread message overwritten. -/
theorem test_dataHandling : gives (exec (.dataHandling 14 [0x09, 0x09, 0x00, 0x0E, 0x08, 0xE8] 2000) held)
    (fun t => (t.inb.peerSeq.toNat, t.inb.incomingLen.toNat, firstBytes t .incoming 2, t.inb.ackRequired))
    (14, 2, [0x09, 0x09], false) = true := by decide +kernel
/-- X12: a number 0 on a fresh engine. -/
theorem test_dataHandling_repeated : gives (exec (.dataHandling 0 [0x42, 0x00, 0x00, 0xBF, 0x51] 1000) ready)
    (fun t => (t.inb.incomingLen.toNat, t.inb.ackRequired)) (0, true) = true := by decide +kernel
/-- 45_link_tx.md R212, the worked example, and the tick before it. -/
theorem test_txSelect_retransmits : gives (exec (.txSelect 6161) awaiting)
    (fun t => (t.stat.txTotalRetries, t.outb.retryCount.toNat, t.ptr.txLen.toNat, t.outb.timeout.toNat))
    (1, 1, 9, 10320) = true := by decide +kernel
theorem test_txSelect_not_due : gives (exec (.txSelect 6160) awaiting) (fun t => (t.ptr.txLen.toNat, t.outb.retryCount.toNat))
    (0, 0) = true := by decide +kernel
/-- 45_link_tx.md R220, the worked example. -/
theorem test_loadFrame : gives (exec (.loadFrame [0xAA, 0x00, 0xBB]) { ready with outb := { ready.outb with ourSeq := 13 } })
    (fun t => (t.ptr.txLen.toNat, firstBytes t .tx 9)) (9, [0x02, 0xAA, 0x02, 0xBB, 0x04, 0x0D, 0xA2, 0x65, 0x00]) = true := by
  decide +kernel
/-- 45_link_tx.md R224: the rest of a frame leaves and the buffer is empty. -/
theorem test_txPush : gives (exec .txPush (at_ 0 sending)) (fun t => (t.env.txFifo, t.ptr.txLen.toNat, t.ptr.txRp.toNat))
    ([0xDC, 0x83, 0x00], 0, 0) = true := by decide +kernel
/-- The same with room for one byte. -/
theorem test_txPush_room : gives (exec .txPush { sending with env := { sending.env with writeSpace := [1] } })
    (fun t => (t.env.txFifo, t.ptr.txLen.toNat, t.ptr.txRp.toNat)) ([0xDC], 6, 4) = true := by decide +kernel
/-- 70_reset_and_hazards.md R300. -/
theorem test_reset : gives (exec .reset awaiting) (fun t => (t.cfg.configured, t.outb.ourSeq.toNat, t.outb.outgoingLen.toNat, t.env.resets))
    (false, 12, 0, 1) = true := by decide +kernel
/-- 10_state.md R47 and R33 for that instance: a reset restores its own number, and a counter of one bit wraps. -/
theorem test_reset_odd : gives (exec .reset { awaiting with params := odd }) (fun t => (t.params.cntW, t.outb.ourSeq)) (1, 255) = true := by
  decide +kernel
theorem test_counter_wraps : gives (exec (.frameShort []) { State.resetWith odd with stat := { ready.stat with rxFail := 1 } })
    (fun t => t.stat.rxFail) 0 = true := by decide +kernel
theorem test_frameShort : gives (exec (.frameShort [0x11, 0x22]) ready) (fun t => t.stat.rxFail) 1 = true := by decide +kernel
/-- X6 and the ack frame of P1. -/
theorem test_frameAckOnly_bad : gives (exec (.frameAckOnly 0x0D 0x0C 0xAADE) awaiting)
    (fun t => (t.stat.rxFail, t.outb.outgoingLen.toNat)) (1, 3) = true := by decide +kernel
theorem test_frameAckOnly : gives (exec (.frameAckOnly 0x0D 0x0C 0xAADF) { awaiting with clk := { last := 4000, overflows := 0 } })
    (fun t => (t.stat.rxOk, t.stat.txOk, t.inb.lastRx.toNat, t.outb.outgoingLen.toNat)) (1, 1, 4000, 0) = true := by
  decide +kernel
/-- X1's frame. -/
theorem test_frameData : gives (exec (.frameData [1, 2, 3] 0x00 0x0D 0xDEC8) ready)
    (fun t => (t.stat.rxOk, t.inb.peerSeq.toNat, t.inb.incomingLen.toNat)) (1, 13, 3) = true := by decide +kernel
/-- O1: 254 bytes. -/
theorem test_frameLong : gives (exec (.frameLong (List.replicate 254 0)) ready) (fun t => t.stat.rxFail) 1 = true := by
  decide +kernel
/-- 95_test_vectors.md 3.2, the step at 02, and 3.3 M5. -/
theorem test_cobsRun : gives (exec (.cobsRun 0x02) { decoding [0x33, 0x00] with
      cobs := { active := true, input := [0x33, 0x00], out := [0x11, 0x22], code := 0x03#8 } })
    (fun t => (t.cobs.out, t.cobs.input, t.cobs.code, t.cobs.active)) ([0x11, 0x22, 0x00, 0x33], [0x00], 0x02, true) = true := by
  decide +kernel
theorem test_cobsRun_cut : gives (exec (.cobsRun 0x05) (decoding [0x11, 0x22, 0x00])) (fun t => (t.host.response, t.cobs.active))
    (.bytesLen [0x11, 0x22] 2, false) = true := by decide +kernel
/-- M8. -/
theorem test_cobsFull : gives (exec .cobsFull (decoding [0x11, 0x00])) (fun t => t.host.response) (.bytesLen [0x11] 1) = true := by
  decide +kernel
theorem test_cobsDelim : gives (exec .cobsDelim (decoding [])) (fun t => t.host.response) (.bytesLen [] 0) = true := by decide +kernel

/-- The words of the table run as the first instruction after reset. -/
theorem test_withFetchWord : gives (step (State.reset.withFetchWord 8 0)) (fun t => t.host.response) (.bytesLen [] 0) = true ∧
    step (State.reset.withFetchWord 4 0x2) = exec .tick State.reset := by
  refine ⟨by decide +kernel, rfl⟩

/-! ## Witnesses: for each statement with hypotheses, a state and operands that meet them all together; for one with several clauses,
each clause at the ends of its range -/

theorem witness_CommandRoundTrip : (Instr.begin 115200).wf = true ∧ encodingSpace (.begin 115200) = some .command ∧
    (Instr.begin 10).wf = true ∧ (Instr.begin 10000000).wf = true := by decide
theorem witness_WireFrameRoundTrip :
    (Instr.frameShort [1, 2, 3]).wf = true ∧ encodingSpace (.frameShort [1, 2, 3]) = some .wire ∧
    (Instr.frameData [1] 0 13 0xDEC8).wf = true ∧ encodingSpace (.frameData [1] 0 13 0xDEC8) = some .wire ∧
    (Instr.frameData (List.replicate 248 0) 0 13 0).wf = true ∧ (Instr.frameLong (List.replicate 253 0)).wf = true := by
  decide +kernel
theorem witness_CobsCodeRoundTrip : (Instr.cobsRun 0x01).wf = true ∧ (Instr.cobsRun 0xFE).wf = true ∧
    encodingSpace (.cobsRun 0xFE) = some .cobsCode := by decide
theorem witness_LengthSelectsFrameKind :
    (List.replicate 3 (0 : Byte)).length ≤ 3 ∧ (List.replicate 4 (0 : Byte)).length = 4 ∧
    (5 ≤ (List.replicate 5 (0 : Byte)).length ∧ (List.replicate 5 (0 : Byte)).length ≤ 252) ∧
    (5 ≤ (List.replicate 252 (0 : Byte)).length ∧ (List.replicate 252 (0 : Byte)).length ≤ 252) ∧
    253 ≤ (List.replicate 253 (0 : Byte)).length := by decide +kernel
theorem witness_ForeignTransactionsRefused :
    ((issued [0x0E, 0x01] ready).host.resetRequest = false ∧ (issued [0x0E, 0x01] ready).cobs.active = false ∧
      (issued [0x0E, 0x01] ready).host.pending = [[0x0E, 0x01]]) ∧
    (issued [] ready).host.pending = [[]] ∧ 16 ≤ (0x10 : Byte).toNat ∧ 16 ≤ (0xFF : Byte).toNat ∧
    ((0x02 : Byte) ∈ [0x02#8, 0x05#8, 0x06#8, 0x07#8, 0x08#8, 0x0C#8] ∧ [(0x00 : Byte)] ≠ []) := by
  refine ⟨⟨rfl, rfl, rfl⟩, rfl, by decide, by decide, by decide, by decide⟩
theorem witness_OperandsOutOfFormRefused : (Instr.rxFrame 257 0).wf = false ∧ ∀ baud, Instr.rxFrame 257 0 ≠ .begin baud :=
  ⟨by decide, fun _ h => (by cases h)⟩
/-- For every statement whose only hypothesis is that the engine is configured: `CobsRoundTrip`, `CobsEncodedLength`,
`CobsDecodesAnyInput`, `CrcOfBlockIsBitSerial`, `ClockSampleExtends`, `QueriesWriteNothing`, `IsOpenSamplesAndCompares`. -/
theorem witness_configured : ready.cfg.configured = true ∧ held.cfg.configured = true ∧ awaiting.cfg.configured = true :=
  ⟨rfl, rfl, rfl⟩
theorem witness_CodeByteRunsItsBlock :
    (Instr.cobsRun 0x03).wf = true ∧
    ((decoding [0x11, 0x22, 0x02]).cobs.input = [0x11, 0x22] ++ [0x02] ∧ [(0x11 : Byte), 0x22].length = (0x03 : Byte).toNat - 1 ∧
      (0x00#8 : Byte) ∉ [(0x11 : Byte), 0x22]) ∧
    ((decoding [0x11]).cobs.input = [0x11] ++ [] ∧ [(0x11 : Byte)].length < (0x03 : Byte).toNat - 1) ∧
    ((decoding [0x11, 0x00]).cobs.input = [0x11] ++ [0x00] ∧ [(0x00 : Byte)].head? = some 0x00#8) ∧
    ((0x01 : Byte).toNat - 1 = 0 ∧ (0xFF : Byte).toNat - 1 = 254) := by
  refine ⟨by decide, ⟨rfl, by decide, by decide⟩, ⟨rfl, by decide⟩, ⟨rfl, by decide⟩, by decide, by decide⟩
theorem witness_BlocksDecodeTheInput : (decoding [0x03, 0x11, 0x22, 0x00]).host.resetRequest = false ∧
    (decoding [0x03, 0x11, 0x22, 0x00]).cobs = { active := true, input := [0x03, 0x11, 0x22, 0x00], out := [], code := 0xFF#8 } :=
  ⟨rfl, rfl⟩
theorem witness_ClockAdvancesByElapsedTime : ready.cfg.configured = true ∧ ready.clk.overflows ≠ 0xFFFFFFFF#32 ∧
    ({ ready with clk := { last := 0xFFFFFFFF, overflows := 0xFFFFFFFE } } : State).clk.overflows ≠ 0xFFFFFFFF#32 := by
  refine ⟨rfl, by decide, by decide⟩

/-- A state with every timestamp set, a `TICK` waiting. -/
def ticking : State := issued [0x02] (at_ 7000 { awaiting with clk := { last := 6000, overflows := 0 } })

theorem witness_TimestampsStayPast : ticking.clk.overflows ≠ 0xFFFFFFFF#32 ∧ TimestampsPast ticking ∧
    ∃ t, step ticking = .next t :=
  ⟨by decide, ⟨by decide +kernel, by decide +kernel, by decide +kernel, by decide +kernel⟩,
    exists_of_completes (by decide +kernel)⟩
theorem witness_ClockNeverRunsBack : ticking.clk.overflows ≠ 0xFFFFFFFF#32 ∧ ticking.host.resetRequest = false ∧
    ∃ t, step ticking = .next t :=
  ⟨by decide, rfl, exists_of_completes (by decide +kernel)⟩
theorem witness_BeginConfiguresOnce : ready.cfg.configured = true ∧ State.reset.cfg.configured = false ∧
    (9 < 10 ∨ 10000000 < 9) ∧ (10000001 < 10 ∨ 10000000 < 10000001) ∧ (10 ≤ 10 ∧ 10 ≤ 10000000) ∧
    (10 ≤ 10000000 ∧ 10000000 ≤ 10000000) := by
  refine ⟨rfl, rfl, by decide, by decide, by decide, by decide⟩
theorem witness_OperationsNeedBegin : isOperation .tick = true ∧ (∀ baud, Instr.tick ≠ .begin baud) ∧
    State.reset.cfg.configured = false ∧ ready.cfg.configured = true :=
  ⟨by decide, fun _ h => (by cases h), rfl, rfl⟩
theorem witness_AvgRetryCountIsQuotient : ready.stat.txOk + ready.stat.txFail = 0 ∧
    ({ ready with stat := { ready.stat with txOk := 1 } } : State).stat.txOk +
      ({ ready with stat := { ready.stat with txOk := 1 } } : State).stat.txFail ≠ 0 := by
  refine ⟨by decide, by decide⟩
theorem witness_AvgRetryCountIsQuotient_exact : ready.params.statReal = .exact ∧ odd.statReal ≠ .exact := ⟨rfl, by decide⟩
theorem witness_AveragesTakeOneSample : Config.StatArith.exact = awaiting.params.statReal ∧
    3000 = ((4000 : Time) - awaiting.outb.txStartTime).toNat ∧
    258 = awaiting.outb.outgoingLen.toNat * awaiting.cfg.usPerByte.toNat := ⟨rfl, by decide +kernel, by decide +kernel⟩
theorem witness_SendTakesMessageOrNothing_idle : ready.cfg.configured = true ∧ ready.outb.outgoingLen = 0 ∧ ready.buf.outgoing.wf = true :=
  ⟨rfl, rfl, rfl⟩
theorem witness_SendTakesMessageOrNothing_busy : pending.cfg.configured = true ∧ pending.outb.outgoingLen ≠ 0 := ⟨rfl, by decide⟩
theorem witness_ReadDeliversMessageOrZero_held : held.cfg.configured = true ∧ held.inb.incomingLen ≠ 0 := ⟨rfl, by decide⟩
theorem witness_ReadDeliversMessageOrZero_empty : ready.cfg.configured = true ∧ ready.inb.incomingLen = 0 := ⟨rfl, rfl⟩
theorem witness_BackoffDoublesToCap :
    ({ ready with ptr := { ready.ptr with txLen := 254 } } : State).cfg = configFor 115200 ∧ baudInRange 115200 = true ∧
    ({ ready with ptr := { ready.ptr with txLen := 254 } } : State).ptr.txLen.toNat ≤ 254 ∧ ready.cfg.configured = true := by
  refine ⟨rfl, by decide, by decide, rfl⟩
theorem witness_DrainReadsByteByByte : (pollArrivals ready).env.rxFifo = [] ∧
    (pollArrivals (inbound [0x01, 0x00] ready)).env.rxFifo = [0x01, 0x00] ∧
    (∃ t, exec (.rxByte 0x01 0) (tReadLeaves (pollArrivals (inbound [0x01, 0x00] ready)) [0x00]) = .next t) ∧
    ∃ f, exec (.rxByte 0x01 0) (tReadLeaves (pollArrivals (inbound [0x01, 0x00]
      { ready with ptr := { ready.ptr with rxWp := 256 } })) [0x00]) = .fault f :=
  ⟨rfl, rfl, exists_of_completes (by decide +kernel), _, rfl⟩
theorem witness_DrainEmptiesTheFifo : ready.ptr.rxWp.toNat < 256 ∧
    ({ ready with ptr := { ready.ptr with rxWp := 255 } } : State).ptr.rxWp.toNat < 256 := by
  refine ⟨by decide, by decide⟩
theorem witness_ReceivedByteIsStored : (0x01#8 : Byte) ≠ 0x00#8 ∧ ready.ptr.rxWp.toNat < 256 ∧ ready.buf.rx.wf = true ∧
    ({ ready with ptr := { ready.ptr with rxWp := 255 } } : State).ptr.rxWp.toNat < 256 := by
  refine ⟨by decide, by decide, rfl, by decide⟩
theorem witness_DelimiterCompletesFrame : ready.ptr.rxWp.toNat < 256 ∧ ready.buf.rx.wf = true := ⟨by decide, rfl⟩
theorem witness_DelimiterResynchronises : ({ ready with ptr := { ready.ptr with rxWp := 255 } } : State).ptr.rxWp.toNat < 256 ∧
    ready.buf.rx.wf = true := by
  refine ⟨by decide, rfl⟩
theorem witness_FrameIsDecodedInPlace : 1 ≤ 1 ∧ 256 ≤ 256 ∧ ready.buf.rx.wf = true ∧ clkTime ready.clk = 0 := by
  refine ⟨by decide, by decide, rfl, by decide +kernel⟩
theorem witness_WrongLengthFrameDiscarded : [(1 : Byte), 2, 3].length < 4 ∧ 252 < (List.replicate 253 (0 : Byte)).length := by decide +kernel
theorem witness_BadCrcFrameDiscarded : 0xAADE#16 ≠ crc16 ([] ++ [0x0D, 0x0C]) ∧ 0#16 ≠ crc16 ([1] ++ [0x00, 0x0D]) ∧
    1 ≤ [(1 : Byte)].length ∧ [(1 : Byte)].length ≤ 248 := by decide +kernel
theorem witness_GoodFrameIsProcessedInOrder : ([] : List Byte) = [] ∧ 1 ≤ [(1 : Byte)].length ∧
    (List.replicate 248 (0 : Byte)).length ≤ 248 := by decide +kernel
theorem witness_RepeatedFrameOnlyCounts : 1 ≤ [(1 : Byte)].length ∧ [(1 : Byte)].length ≤ 248 ∧
    1 ≤ (List.replicate 248 (0 : Byte)).length ∧ (List.replicate 248 (0 : Byte)).length ≤ 248 := by decide +kernel
theorem witness_AcknowledgementEndsMessage : awaiting.outb.outgoingLen ≠ 0 ∧ (13#8 : Byte) = awaiting.outb.ourSeq ∧
    ready.outb.outgoingLen = 0 ∧ (12#8 : Byte) ≠ awaiting.outb.ourSeq := by
  refine ⟨by decide, rfl, rfl, by decide⟩
theorem witness_DataHandlingThreeWays :
    5 ≤ [(0x42 : Byte), 0, 0, 0xBF, 0x51].length ∧ (List.replicate 252 (0 : Byte)).length ≤ 252 ∧
    ((13#8 : Byte) = held.inb.peerSeq ∧ held.inb.incomingLen ≠ 0) ∧ ((0#8 : Byte) = ready.inb.peerSeq ∧ ready.inb.incomingLen = 0) ∧
    ((14#8 : Byte) ≠ held.inb.peerSeq ∧ held.buf.incoming.wf = true) := by
  refine ⟨by decide, by decide +kernel, ⟨rfl, by decide⟩, ⟨rfl, rfl⟩, by decide, by decide⟩
theorem witness_NewMessageIsLoaded : pending.ptr.txLen = 0 ∧ pending.buf.tx.wf = true ∧ pending.outb.outgoingLen ≠ 0 ∧
    pending.outb.outgoingLen.toNat ≤ 248 ∧ pending.outb.lastTxTime = 0 := by
  refine ⟨rfl, rfl, by decide, by decide, rfl⟩
theorem witness_TimeoutRetransmitsOrGivesUp_retry : awaiting.ptr.txLen = 0 ∧ awaiting.buf.tx.wf = true ∧ awaiting.outb.outgoingLen ≠ 0 ∧
    awaiting.outb.outgoingLen.toNat ≤ 248 ∧ awaiting.outb.lastTxTime ≠ 0 ∧
    awaiting.outb.timeout < (6161 : Time) - awaiting.outb.lastTxTime ∧ awaiting.outb.retryCount.toNat < 10 ∧
    ({ awaiting with outb := { awaiting.outb with retryCount := 9 } } : State).outb.retryCount.toNat < 10 := by
  refine ⟨rfl, rfl, by decide, by decide, by decide, by decide, by decide, by decide⟩
/-- The message after its tenth retry. -/
def exhausted : State := { awaiting with outb := { awaiting.outb with retryCount := 10 } }
theorem witness_TimeoutRetransmitsOrGivesUp_exhausted : exhausted.ptr.txLen = 0 ∧ exhausted.outb.outgoingLen ≠ 0 ∧ exhausted.outb.lastTxTime ≠ 0 ∧
    exhausted.outb.timeout < (6161 : Time) - exhausted.outb.lastTxTime ∧ exhausted.outb.retryCount.toNat = 10 := by
  refine ⟨rfl, by decide, by decide, by decide, by decide⟩
theorem witness_AckOrKeepaliveIsLoaded :
    (awaiting.ptr.txLen = 0 ∧ awaiting.buf.tx.wf = true ∧ awaiting.outb.lastTxTime ≠ 0 ∧
      (6160 : Time) - awaiting.outb.lastTxTime ≤ awaiting.outb.timeout) ∧
    ({ awaiting with inb := { awaiting.inb with ackRequired := true } } : State).inb.ackRequired = true ∧
    (ready.outb.outgoingLen = 0 ∧ ready.cfg.keepaliveTxInterval < (2150001 : Time) - ready.outb.lastTxOut) := by
  refine ⟨⟨rfl, rfl, by decide, by decide⟩, rfl, rfl, by decide +kernel⟩
theorem witness_NothingDueNothingLoaded : sending.ptr.txLen ≠ 0 ∧
    (ready.outb.outgoingLen = 0 ∧ ready.inb.ackRequired = false ∧
      (2150000 : Time) - ready.outb.lastTxOut ≤ ready.cfg.keepaliveTxInterval) ∧
    (awaiting.outb.lastTxTime ≠ 0 ∧ (6160 : Time) - awaiting.outb.lastTxTime ≤ awaiting.outb.timeout ∧
      awaiting.inb.ackRequired = false ∧ (6160 : Time) - awaiting.outb.lastTxOut ≤ awaiting.cfg.keepaliveTxInterval) := by
  refine ⟨by decide, ⟨rfl, rfl, by decide +kernel⟩, by decide, by decide, rfl, by decide +kernel⟩
theorem witness_LoadedFrameCarriesPayload : ([] : List Byte).length ≤ 248 ∧ (List.replicate 248 (0 : Byte)).length ≤ 248 ∧
    ready.ptr.txLen = 0 ∧ ready.buf.tx.wf = true := by
  refine ⟨by decide, by decide +kernel, rfl, rfl⟩
theorem witness_LoadFrameNeedsEmptyBuffer : ([] : List Byte).length ≤ 248 ∧ sending.ptr.txLen ≠ 0 := ⟨by simp, by decide⟩
theorem witness_PushHandsOverInOrder : ready.ptr.txLen = 0 ∧ sending.ptr.txLen ≠ 0 ∧
    sending.ptr.txRp.toNat ≤ sending.ptr.txLen.toNat ∧ sending.ptr.txLen.toNat ≤ 256 := by
  refine ⟨rfl, by decide, by decide, by decide⟩
theorem witness_StepRunsDecodedInstruction :
    (ticking.host.resetRequest = false ∧ ticking.cobs.active = false ∧ ticking.host.pending = [0x02#8] :: [] ∧
      decode .command [0x02#8] = .ok (.tick, []) ∧ Instr.tick.wf = true) ∧
    ((decoding [0x03, 0x11]).host.resetRequest = false ∧ (decoding [0x03, 0x11]).cobs.active = true ∧
      (decoding [0x03, 0x11]).cobs.input = 0x03#8 :: [0x11]) ∧
    ({ ready with host := { ready.host with resetRequest := true } } : State).host.resetRequest = true :=
  ⟨⟨rfl, rfl, rfl, rfl, rfl⟩, ⟨rfl, rfl, rfl⟩, rfl⟩
theorem witness_IdleEngineChangesNothing : ready.host.resetRequest = false ∧ ready.cobs.active = false ∧ ready.host.pending = [] :=
  ⟨rfl, rfl, rfl⟩

/-- A configured engine in the middle of its work meets the invariant: a message awaiting its acknowledgement, another held, an
ack-only frame half sent, one byte received, a `TICK` waiting. -/
def working : State :=
  issued [0x02] (at_ 7000
    { sending with
      outb := { awaiting.outb with retryCount := 1 }
      inb := { held.inb with ackRequired := true }
      ptr := { sending.ptr with rxWp := 1 }
      stat := { sending.stat with maxRetryIntervalIssued := 5160 }
      buf := { sending.buf with outgoing := pending.buf.outgoing, incoming := held.buf.incoming, rx := [(0, 0x05#8)] } })

theorem working_inv : Inv working where
  buffers b := by cases b <;> decide +kernel
  outgoingRange := by decide +kernel
  incomingRange := by decide +kernel
  retryRange := by decide +kernel
  counters := ⟨by decide, by decide, by decide, by decide, by decide⟩
  txFrame := .inr ⟨[0x00, 0x0C, 0xDC, 0x83], by decide, by decide, by decide +kernel, by decide +kernel, by decide +kernel⟩
  rxWpRange := by decide +kernel
  rxNoZero a h := by
    have h1 : a < 1 := h
    obtain rfl : a = 0 := by omega
    decide +kernel
  ackCommitted h := absurd h (by decide)
  idleCleared h := absurd h (by decide)
  configuration _ := ⟨115200, by decide, rfl⟩
  timeoutRecorded := by decide +kernel
  intervalCapped := by decide +kernel
  unissued h := absurd h (by decide)

theorem witness_TickRunsItsPhases : working.cfg.configured = true ∧ Inv working := ⟨rfl, working_inv⟩
theorem witness_StepKeepsInvariant : Inv working ∧ ∃ t, step working = .next t :=
  ⟨working_inv, exists_of_completes (by decide +kernel)⟩
theorem witness_InvariantStatesNeverFault : Inv working := working_inv
theorem witness_OnlyBeginWritesConfiguration : (∃ t, exec .tick (at_ 7000 working) = .next t) ∧ (∃ t, step working = .next t) ∧
    (∀ baud, Instr.tick ≠ .begin baud) ∧ Instr.tick ≠ .reset :=
  ⟨exists_of_completes (by decide +kernel), exists_of_completes (by decide +kernel), fun _ h => (by cases h), fun h => (by cases h)⟩
theorem witness_SequenceNumberWriters : (∃ t, exec .clearToSend ready = .next t) ∧ Instr.clearToSend ≠ .reset ∧
    (∀ buf, Instr.clearToSend ≠ .send buf) ∧ (∀ max, Instr.clearToSend ≠ .read max) ∧ isOperation .clearToSend = true ∧
    Instr.clearToSend ≠ .tick :=
  ⟨⟨_, rfl⟩, fun h => (by cases h), fun _ h => (by cases h), fun _ h => (by cases h), rfl, fun h => (by cases h)⟩
theorem witness_OnlySamplingWritesClock : (∃ t, exec (.send [4]) pending = .next t) ∧ Instr.send [4] ≠ .tick ∧
    Instr.send [4] ≠ .isOpen ∧ Instr.send [4] ≠ .clkSample ∧ Instr.send [4] ≠ .reset ∧
    (∀ buf, Instr.send [4] = .send buf → pending.outb.outgoingLen ≠ 0) :=
  ⟨⟨_, rfl⟩, fun h => (by cases h), fun h => (by cases h), fun h => (by cases h), fun h => (by cases h), fun _ _ => (by decide)⟩
theorem witness_OnlyTickMovesBytes : isOperation (.read 2) = true ∧ Instr.read 2 ≠ .tick ∧ ∃ t, exec (.read 2) held = .next t :=
  ⟨rfl, fun h => (by cases h), exists_of_completes (by decide +kernel)⟩
theorem witness_FrameBeingSentIsNotAltered : (∃ t, exec .tick (at_ 7000 working) = .next t) ∧ Instr.tick ≠ .reset ∧
    (at_ 7000 working).ptr.txLen ≠ 0 :=
  ⟨exists_of_completes (by decide +kernel), fun h => (by cases h), by decide⟩
theorem witness_LoadedFrameDeliversMessage : 1 ≤ [(1 : Byte)].length ∧ (List.replicate 248 (0 : Byte)).length ≤ 248 ∧
    pending.ptr.txLen = 0 ∧ pending.buf.tx.wf = true ∧ ready.ptr.rxWp = 0 ∧ ready.buf.rx.wf = true ∧ ready.buf.incoming.wf = true ∧
    pending.outb.ourSeq ≠ ready.inb.peerSeq := by
  refine ⟨by decide, by decide +kernel, rfl, rfl, rfl, rfl, rfl, by decide⟩

end Sys2Proof.Tests
end

section
/-! The invariant of the reset state: every field of `Inv` but the buffers' canonical form speaks of registers alone, and a reset
gives those the values of 10_state.md R47 whatever the buffers, the inputs and the host's side hold. -/

namespace Sys2Proof.Machine

/-- The buffers of the reset state list no byte. -/
@[simp] theorem getBuf_resetWith (p : Config.Params) (b : Buffer) : getBuf (State.resetWith p) b = [] := by cases b <;> rfl

/-- Registers at their reset values meet the invariant beside any canonical buffers (10_state.md R37, R47). Nothing is in flight,
held or configured, so R43 is its empty case and the clauses on `rx_buf` and on the configuration have no instance. -/
theorem inv_of_registers_reset (p : Config.Params) (bufs : Buffers) (env : Environment) (host : HostPort)
    (hbuf : ∀ b, (getBuf { State.resetWith p with buf := bufs, env := env, host := host } b).wf = true ∧
      memBelow (capacity b) (getBuf { State.resetWith p with buf := bufs, env := env, host := host } b) = true) :
    Inv { State.resetWith p with buf := bufs, env := env, host := host } where
  buffers := hbuf
  outgoingRange := Nat.zero_le _
  incomingRange := Nat.zero_le _
  retryRange := Nat.zero_le _
  counters := by
    have zero_lt : 0 < 2 ^ p.cntW := Nat.two_pow_pos _
    exact ⟨zero_lt, zero_lt, zero_lt, zero_lt, zero_lt⟩
  txFrame := .inl ⟨rfl, rfl⟩
  rxWpRange := show 0 < Config.bufCap by decide
  rxNoZero a h := absurd h (Nat.not_lt_zero a)
  ackCommitted _ := rfl
  idleCleared _ := ⟨rfl, rfl⟩
  configuration h := absurd h Bool.false_ne_true
  timeoutRecorded := BitVec.le_refl (0 : Time)
  intervalCapped := BitVec.le_refl (0 : Time)
  unissued _ := rfl

/-- The reset state of every instance meets the invariant (00_scope.md R8). -/
theorem inv_resetWith (p : Config.Params) : Inv (State.resetWith p) :=
  inv_of_registers_reset p (State.resetWith p).buf (State.resetWith p).env (State.resetWith p).host fun b => by
    change (getBuf (State.resetWith p) b).wf = true ∧ memBelow (capacity b) (getBuf (State.resetWith p) b) = true
    simp [Memory.wf, memWfFrom, memBelow]

/-- Settles O52: the reset state is the instance with the default parameters. -/
theorem invariantAtReset : Obligations.InvariantAtReset :=
  ⟨inv_resetWith Config.Params.default, inv_resetWith⟩

end Sys2Proof.Machine
end

section
/-! What a step fetches, each source under its own condition, and the reset table (10_state.md R40, R47). -/

namespace Sys2Proof.Machine

/-! ## A step, by the source of what it does -/

/-- A requested reset comes before anything else (log 12). -/
theorem step_of_resetRequest {s : State} (hr : s.host.resetRequest = true) :
    step s = exec .reset { s with host := { s.host with resetRequest := false } } := by
  simp [step_eq, fetch, hr]

/-- An active decoder reads its next code byte (log 22). -/
theorem step_of_codeByte {s : State} {b : Byte} {rest : List Byte} (hr : s.host.resetRequest = false)
    (ha : s.cobs.active = true) (hi : s.cobs.input = b :: rest) :
    step s = exec (decodeCobsCode b) { s with cobs := { s.cobs with input := rest } } := by
  simp [step_eq, fetch, fetchCobsCode, decode, hr, ha, hi]

/-- With neither of these the host's next transaction runs (log 4). -/
theorem step_of_transaction {s : State} {t : List Byte} {ts : List (List Byte)} {i : Instr} {rest : List Byte}
    (hr : s.host.resetRequest = false) (ha : s.cobs.active = false) (hp : s.host.pending = t :: ts)
    (hd : decode .command t = .ok (i, rest)) :
    step s = exec i { s with host := { s.host with pending := ts } } := by
  simp [step_eq, fetch, fetchCommand, hr, ha, hp, hd]

/-- With no transaction waiting either, the engine is idle (10_state.md R40 (a)). -/
theorem step_of_idle {s : State} (hr : s.host.resetRequest = false) (ha : s.cobs.active = false)
    (hp : s.host.pending = []) : step s = .next s := by
  simp [step_eq, fetch, fetchCommand, hr, ha, hp]

/-- Settles O48. -/
theorem stepRunsDecodedInstruction : Obligations.StepRunsDecodedInstruction := fun _ =>
  ⟨fun _ _ _ hr ha hp hd _ => step_of_transaction hr ha hp hd, fun _ _ hr ha hi => step_of_codeByte hr ha hi,
   step_of_resetRequest⟩

/-- Settles O49. -/
theorem idleEngineChangesNothing : Obligations.IdleEngineChangesNothing := fun _ hr ha hp => step_of_idle hr ha hp

/-! ## The reset table -/

/-- The copied rows of 41_crc.md R123 are the bit-serial CRC of each byte from 0: a check of the table's 256 entries. -/
theorem crcTableAt_eq_bitwise : ∀ i : Byte, crcTableAt i = crcStepBitwise 0 i := by decide +kernel

/-- Settles O50: the registers are those `State.resetWith` lists, and the legality of the parameters is in `Params` itself. -/
theorem resetStateHoldsTable : Obligations.ResetStateHoldsTable := by
  refine ⟨fun p => ?_, ⟨Config.Params.default, rfl, rfl, rfl, rfl⟩, crcTableAt_eq_bitwise⟩
  have seq_ne_zero : p.ourSeqInit ≠ 0 := by simpa using p.seqLegal
  exact ⟨seq_ne_zero, p.widthLegal, rfl, rfl, rfl, rfl, rfl, rfl, rfl⟩

end Sys2Proof.Machine
end

section
/-! What the operations cannot write (00_scope.md R8; 10_state.md R21 to R24): the parameters, the configuration, the sequence numbers.
First what each shared operation of `TICK` answers when it answers a state at all, then two relations that these answers meet, then the
relation for each instruction. -/

namespace Sys2Proof.Machine

/-! ## Answers of the shared operations, from any state -/

/-- `RX_FRAME` reads the whole of `rx_buf[0 .. n-1]`, so it answers only for `n` up to the capacity. -/
theorem rxFrame_eq_ok {n : Nat} {now : Time} {s t : State} (h : rxFrame n now s = .ok t) :
    ∃ d, d.length ≤ Config.bufCap ∧
      receivePayload d now (setBuf s .rx (memWriteBytes (getBuf s .rx) 0 d)) = .ok t := by
  obtain ⟨raw, hread, _⟩ := andThen_eq_ok.1 h
  obtain ⟨hcap, _⟩ := memRead_eq_ok.1 hread
  have hn : n ≤ Config.bufCap := by simpa [capacity] using hcap
  refine ⟨_, ?_, (rxFrame_eq now s hn).symm.trans h⟩
  exact (cobsDec_length_le _).trans (by simpa using hn)

/-- `RX_BYTE` stores its byte at `rx_wp`, so it answers only below the capacity. -/
theorem rxWp_lt_of_rxByte_ok {b : Byte} {now : Time} {s t : State} (h : rxByte b now s = .ok t) :
    s.ptr.rxWp.toNat < Config.bufCap := by
  obtain ⟨_, hwrite, _⟩ := andThen_eq_ok.1 h
  simpa [capacity] using (memWrite_eq_ok.1 hwrite).1

/-- What arrives during the drain loop changes nothing but the inputs and what `RX_BYTE` does: a predicate that both keep, the loop
keeps. -/
theorem drainLoop_induction {P : State → Prop} {now : Time} (input : ∀ s env, P s → P { s with env := env })
    (byte : ∀ b s t, P s → rxByte b now s = .ok t → P t) {fuel : Nat} {s t : State} (hs : P s)
    (h : drainLoop now fuel s = .ok t) : P t := by
  induction fuel generalizing s with
  | zero => exact Except.ok.inj h ▸ hs
  | succ fuel ih =>
    have polled : P (pollArrivals s) := pollArrivals_eq s ▸ input s _ hs
    simp only [drainLoop] at h
    split at h
    case h_1 => exact Except.ok.inj h ▸ polled
    case h_2 b rest _ =>
      obtain ⟨u, hbyte, hloop⟩ := andThen_eq_ok.1 h
      exact ih (byte b _ u (input _ _ polled) hbyte) hloop

/-- `LOAD_FRAME` answers when the frame fits, with the frame at the start of the transmit buffer. -/
theorem loadFrame_eq_ok {msg : List Byte} {s t : State} (h : loadFrame msg s = .ok t) :
    ∃ frame, frame = frameBytes msg s.inb.ackSeq s.outb.ourSeq ∧ frame.length ≤ Config.bufCap ∧
      t = { setBuf s .tx (memWriteBytes (getBuf s .tx) 0 frame) with
            ptr := { s.ptr with txLen := BitVec.ofNat 9 frame.length, txRp := 0 } } := by
  obtain ⟨_, hwrite, _⟩ := andThen_eq_ok.1 h
  have hlen : (frameBytes msg s.inb.ackSeq s.outb.ourSeq).length ≤ Config.bufCap := by
    simpa [capacity] using (memWrite_eq_ok.1 hwrite).1
  exact ⟨_, rfl, hlen, Except.ok.inj (h.symm.trans (loadFrame_ok hlen))⟩

/-- A data frame is the stash's message, loaded with `last_tx_time` at `now`, and then the retry timer is armed. -/
theorem loadDataFrame_eq_ok {now : Time} {s t : State} (h : loadDataFrame now s = .ok t) :
    ∃ u, loadFrame (firstBytes s .outgoing s.outb.outgoingLen.toNat) { s with outb := { s.outb with lastTxTime := now } } = .ok u ∧
      t = armRetry (frameLoaded now u) := by
  obtain ⟨msg, hread, hrest⟩ := andThen_eq_ok.1 h
  obtain ⟨u, hload, ht⟩ := andThen_eq_ok.1 hrest
  obtain ⟨_, rfl⟩ := memRead_eq_ok.1 hread
  exact ⟨u, hload, (Except.ok.inj ht).symm⟩

/-- A retransmission is counted, and then it is the give-up of E5 or one more loading of the data frame. -/
theorem branchRetransmit_eq_ok {now : Time} {s t : State} (h : branchRetransmit now s = .ok t) :
    ∃ u, u = { s with stat := { s.stat with txTotalRetries := countUp s.params s.stat.txTotalRetries },
                      outb := { s.outb with retryCount := s.outb.retryCount + 1 } } ∧
      (t = raiseError .retransmissionExhausted u ∨
        u.outb.retryCount.toNat ≤ Config.maxRetries ∧ loadDataFrame now u = .ok t) := by
  refine ⟨_, rfl, ?_⟩
  simp only [branchRetransmit] at h
  split at h
  case isTrue => exact .inl (Except.ok.inj h).symm
  case isFalse hle => exact .inr ⟨not_lt.1 hle, h⟩

/-- An ack-only frame and a keepalive are both a frame of the empty message. -/
theorem branchAck_eq_ok {now : Time} {s t : State} (h : branchAck now s = .ok t) :
    ∃ u, loadFrame [] s = .ok u ∧ t = frameLoaded now u := by
  obtain ⟨u, hload, ht⟩ := andThen_eq_ok.1 h
  exact ⟨u, hload, (Except.ok.inj ht).symm⟩

/-- `TX_PUSH` hands over at most what is left of the frame, or does nothing when the buffer is empty. -/
theorem txPush_eq_ok {s t : State} (h : txPush s = .ok t) :
    t = s ∨ s.ptr.txLen ≠ 0 ∧ ∃ k env, k ≤ s.ptr.txLen.toNat - s.ptr.txRp.toNat ∧ t = advanceTx k { s with env := env } := by
  unfold txPush at h
  split at h
  case isTrue => exact .inl (Except.ok.inj h).symm
  case isFalse hne =>
    have asked := tAvailableForWrite_snd s
    generalize tAvailableForWrite s = answer at asked h
    obtain ⟨space, s1⟩ := answer
    dsimp only at asked h
    rw [asked] at h
    obtain ⟨bs, _, ht⟩ := andThen_eq_ok.1 h
    exact .inr ⟨hne, _, _, Nat.min_le_right _ _, (Except.ok.inj ht).symm⟩

/-- The four phases of `TICK`, with the states between them. -/
theorem tickPhases_eq_ok {s t : State} (h : tickPhases s = .ok t) :
    ∃ u v, rxDrain (clkSample s).1 (clkSample s).2 = .ok u ∧ txSelectWhenEmpty (clkSample s).1 u = .ok v ∧ txPush v = .ok t := by
  obtain ⟨u, hdrain, hrest⟩ := andThen_eq_ok.1 h
  obtain ⟨v, hselect, hpush⟩ := andThen_eq_ok.1 hrest
  exact ⟨u, v, hdrain, hselect, hpush⟩

/-! ## Operations that change no register but the clock's -/

/-- `t` differs from `s` at most in the clock extender, the inputs, the host's side and the decoder unit. -/
def OnlyPortsChange (s t : State) : Prop := t = { s with clk := t.clk, env := t.env, host := t.host, cobs := t.cobs }

theorem onlyPortsChange_refl (s : State) : OnlyPortsChange s s := rfl

theorem onlyPortsChange_respond {s t : State} (h : OnlyPortsChange s t) (r : Response) : OnlyPortsChange s (respond t r) := by
  unfold OnlyPortsChange at h ⊢
  rw [h]; rfl

theorem onlyPortsChange_clkSample (s : State) : OnlyPortsChange s (clkSample s).2 := by rw [clkSample_eq]; rfl

/-- A code block writes the decoder's variables, or stops the decoder with a result. -/
theorem onlyPortsChange_cobsCodeBlock (c : Byte) (s : State) : OnlyPortsChange s (cobsCodeBlock c s) := by
  unfold cobsCodeBlock
  split
  split <;> rfl

/-- The instructions that ask or compute: no register of 10_state.md R21 to R35 and no buffer is their target. -/
def isQuery : Instr → Bool
  | .isOpen | .clearToSend | .clearToRead | .stats | .crc16 _ | .cobsEnc _ | .cobsDec _ | .clkSample | .backoff _
  | .avgRetryCount | .crcStep _ _ | .cobsDelim | .cobsRun _ | .cobsFull => true
  | _ => false

/-- The answer of a query that tests `configured` first. -/
theorem onlyPortsChange_of_whenConfigured {c s t u : State} {r : Response} (hs : OnlyPortsChange s u)
    (h : whenConfigured c (.next (respond u r)) = .next t) : OnlyPortsChange s t := by
  obtain ⟨_, ht⟩ := whenConfigured_eq_next.1 h
  cases ht
  exact onlyPortsChange_respond hs r

theorem exec_query_onlyPortsChange {i : Instr} {s t : State} (hi : isQuery i = true) (h : exec i s = .next t) :
    OnlyPortsChange s t := by
  have asks : ∀ {r}, whenConfigured s (.next (respond s r)) = .next t → OnlyPortsChange s t :=
    onlyPortsChange_of_whenConfigured (onlyPortsChange_refl s)
  have samples : ∀ {r}, whenConfigured s (.next (respond (clkSample s).2 r)) = .next t → OnlyPortsChange s t :=
    onlyPortsChange_of_whenConfigured (onlyPortsChange_clkSample s)
  cases i with
  | isOpen => exact samples h
  | clkSample => exact samples h
  | clearToSend => exact asks h
  | clearToRead => exact asks h
  | stats => exact asks h
  | crc16 => exact asks h
  | cobsEnc => exact asks h
  | cobsDec => exact asks h
  | backoff => exact asks h
  | avgRetryCount => cases h; rfl
  | crcStep => cases h; rfl
  | cobsDelim => cases h; rfl
  | cobsRun c =>
    obtain ⟨_, ht⟩ := whenInForm_eq_next.1 h
    cases ht
    exact onlyPortsChange_cobsCodeBlock c s
  | cobsFull =>
    cases h
    exact onlyPortsChange_cobsCodeBlock _ s
  | _ => exact absurd hi Bool.false_ne_true

/-! ## What the phases of `TICK` keep -/

/-- The parameters, the configuration, our own number and the number we acknowledge: no phase of `TICK` writes them. -/
structure IdentityKept (s t : State) : Prop where
  params : t.params = s.params
  cfg : t.cfg = s.cfg
  ourSeq : t.outb.ourSeq = s.outb.ourSeq
  ackSeq : t.inb.ackSeq = s.inb.ackSeq

theorem IdentityKept.refl (s : State) : IdentityKept s s := ⟨rfl, rfl, rfl, rfl⟩

theorem IdentityKept.trans {s t u : State} (h : IdentityKept s t) (h' : IdentityKept t u) : IdentityKept s u :=
  ⟨h'.params.trans h.params, h'.cfg.trans h.cfg, h'.ourSeq.trans h.ourSeq, h'.ackSeq.trans h.ackSeq⟩

theorem OnlyPortsChange.identityKept {s t : State} (h : OnlyPortsChange s t) : IdentityKept s t := by rw [h]; exact ⟨rfl, rfl, rfl, rfl⟩

theorem ackHandling_identityKept (a : Byte) (now : Time) (s : State) : IdentityKept s (ackHandling a now s) := by
  rcases ackHandling_cases a now s with ⟨_, _, e⟩ | ⟨_, e⟩ <;> rw [e] <;> exact ⟨rfl, rfl, rfl, rfl⟩

theorem dataHandling_identityKept {q : Byte} {d : List Byte} {s t : State} (hd : d.length ≤ Config.maxPayload)
    (h : dataHandling q d s = .ok t) : IdentityKept s t := by
  rcases dataHandling_cases q s hd with ⟨_, _, e⟩ | ⟨_, _, e⟩ | ⟨_, e⟩ <;> cases e.symm.trans h <;> exact ⟨rfl, rfl, rfl, rfl⟩

theorem receivePayload_identityKept {d : List Byte} {now : Time} {s t : State} (h : receivePayload d now s = .ok t) :
    IdentityKept s t := by
  have good : IdentityKept s (ackHandling (payloadAck d) now (goodFrame now s)) :=
    IdentityKept.trans (t := goodFrame now s) ⟨rfl, rfl, rfl, rfl⟩ (ackHandling_identityKept _ _ _)
  rcases receivePayload_cases d now s with ⟨_, e⟩ | ⟨_, _, _, e⟩ | ⟨_, _, e⟩ | ⟨_, hd, _, e⟩
  · cases e.symm.trans h; exact ⟨rfl, rfl, rfl, rfl⟩
  · cases e.symm.trans h; exact ⟨rfl, rfl, rfl, rfl⟩
  · cases e.symm.trans h; exact good
  · exact good.trans (dataHandling_identityKept hd (e.symm.trans h))

theorem receiveNow_identityKept {d : List Byte} {s t : State} (h : receiveNow d s = .next t) : IdentityKept s t :=
  receivePayload_identityKept (finish_eq_next.1 h)

theorem rxFrame_identityKept {n : Nat} {now : Time} {s t : State} (h : rxFrame n now s = .ok t) : IdentityKept s t := by
  obtain ⟨_, _, hpayload⟩ := rxFrame_eq_ok h
  exact IdentityKept.trans (by exact ⟨rfl, rfl, rfl, rfl⟩) (receivePayload_identityKept hpayload)

theorem rxByte_identityKept {b : Byte} {now : Time} {s t : State} (h : rxByte b now s = .ok t) : IdentityKept s t := by
  obtain ⟨s1, rfl, ⟨_, e⟩ | ⟨_, _, e⟩ | ⟨_, _, e⟩⟩ := rxByte_cases (b := b) (now := now) (rxWp_lt_of_rxByte_ok h)
  · exact IdentityKept.trans (by exact ⟨rfl, rfl, rfl, rfl⟩) (rxFrame_identityKept (e.symm.trans h))
  · cases e.symm.trans h; exact ⟨rfl, rfl, rfl, rfl⟩
  · cases e.symm.trans h; exact ⟨rfl, rfl, rfl, rfl⟩

theorem rxDrain_identityKept {now : Time} {s t : State} (h : rxDrain now s = .ok t) : IdentityKept s t :=
  drainLoop_induction (P := IdentityKept s) (fun _ _ hu => hu.trans ⟨rfl, rfl, rfl, rfl⟩)
    (fun _ _ _ hu hbyte => hu.trans (rxByte_identityKept hbyte)) (IdentityKept.refl s) h

theorem loadFrame_identityKept {msg : List Byte} {s t : State} (h : loadFrame msg s = .ok t) : IdentityKept s t := by
  obtain ⟨_, _, _, rfl⟩ := loadFrame_eq_ok h
  exact ⟨rfl, rfl, rfl, rfl⟩

theorem loadDataFrame_identityKept {now : Time} {s t : State} (h : loadDataFrame now s = .ok t) : IdentityKept s t := by
  obtain ⟨u, hload, rfl⟩ := loadDataFrame_eq_ok h
  obtain ⟨params, cfg, ourSeq, ackSeq⟩ := loadFrame_identityKept hload
  exact ⟨params, cfg, ourSeq, ackSeq⟩

theorem branchRetransmit_identityKept {now : Time} {s t : State} (h : branchRetransmit now s = .ok t) : IdentityKept s t := by
  obtain ⟨u, rfl, rfl | ⟨_, hload⟩⟩ := branchRetransmit_eq_ok h
  · exact ⟨rfl, rfl, rfl, rfl⟩
  · exact IdentityKept.trans (by exact ⟨rfl, rfl, rfl, rfl⟩) (loadDataFrame_identityKept hload)

theorem branchAck_identityKept {now : Time} {s t : State} (h : branchAck now s = .ok t) : IdentityKept s t := by
  obtain ⟨u, hload, rfl⟩ := branchAck_eq_ok h
  obtain ⟨params, cfg, ourSeq, ackSeq⟩ := loadFrame_identityKept hload
  exact ⟨params, cfg, ourSeq, ackSeq⟩

theorem txSelect_identityKept {now : Time} {s t : State} (h : txSelect now s = .ok t) : IdentityKept s t := by
  rcases txSelect_cases now s with ⟨_, e⟩ | ⟨_, _, _, e⟩ | ⟨_, _, _, e⟩ | ⟨_, _, _, _, e⟩ | ⟨_, _, _, _, e⟩ <;> rw [e] at h
  · exact loadDataFrame_identityKept h
  · exact branchRetransmit_identityKept h
  · exact branchAck_identityKept h
  · exact branchAck_identityKept h
  · cases h; exact IdentityKept.refl s

theorem txSelectWhenEmpty_identityKept {now : Time} {s t : State} (h : txSelectWhenEmpty now s = .ok t) : IdentityKept s t := by
  unfold txSelectWhenEmpty at h
  split at h
  · exact txSelect_identityKept h
  · cases h; exact IdentityKept.refl s

theorem txPush_identityKept {s t : State} (h : txPush s = .ok t) : IdentityKept s t := by
  obtain rfl | ⟨_, k, env, _, rfl⟩ := txPush_eq_ok h
  · exact IdentityKept.refl _
  · exact ⟨advanceTx_params _ _, advanceTx_cfg _ _, by simp, by simp⟩

theorem tickPhases_identityKept {s t : State} (h : tickPhases s = .ok t) : IdentityKept s t := by
  obtain ⟨u, v, hdrain, hselect, hpush⟩ := tickPhases_eq_ok h
  exact (onlyPortsChange_clkSample s).identityKept.trans <| (rxDrain_identityKept hdrain).trans <|
    (txSelectWhenEmpty_identityKept hselect).trans (txPush_identityKept hpush)

/-! ## The coded operations that write registers -/

theorem exec_begin_eq_next {baud : Nat} {s t : State} (h : exec (.begin baud) s = .next t) :
    s.cfg.configured = false ∧ baudInRange baud = true ∧ t = respond (tBegin { s with cfg := configFor baud } baud) .none := by
  change execBegin baud s = .next t at h
  unfold execBegin at h
  split at h
  case isTrue => cases h
  case isFalse hc =>
    split at h
    case isTrue hb => cases h; exact ⟨by simpa using hc, hb, rfl⟩
    case isFalse => cases h

theorem exec_tick_eq_next {s t : State} (h : exec .tick s = .next t) :
    s.cfg.configured = true ∧ ∃ u, tickPhases s = .ok u ∧ t = respond u .none := by
  obtain ⟨hc, hf⟩ := whenConfigured_eq_next.1 h
  obtain ⟨u, hu, ht⟩ := andThen_eq_ok.1 (finish_eq_next.1 hf)
  exact ⟨hc, u, hu, (Except.ok.inj ht).symm⟩

theorem exec_send_eq_next {buf : List Byte} {s t : State} (h : exec (.send buf) s = .next t) :
    ∃ u, sendMessage buf s = .ok u ∧ t = respond u .none := by
  obtain ⟨_, hf⟩ := whenConfigured_eq_next.1 h
  obtain ⟨u, hu, ht⟩ := andThen_eq_ok.1 (finish_eq_next.1 hf)
  exact ⟨u, hu, (Except.ok.inj ht).symm⟩

theorem exec_read_eq_next {max : Nat} {s t : State} (h : exec (.read max) s = .next t) : readMessage max s = .ok t :=
  finish_eq_next.1 (whenConfigured_eq_next.1 h).2

/-- `SEND` writes the outbound half and its stash, and no number of the peer. -/
theorem sendMessage_keeps {buf : List Byte} {s t : State} (h : sendMessage buf s = .ok t) :
    t.params = s.params ∧ t.cfg = s.cfg ∧ t.inb = s.inb := by
  rcases sendMessage_cases buf s with ⟨_, e⟩ | ⟨_, u, e, hu⟩
  · cases e.symm.trans h; exact ⟨rfl, rfl, rfl⟩
  · cases e.symm.trans h
    rw [hu, clkSample_eq]
    exact ⟨rfl, rfl, rfl⟩

/-- `READ` writes the inbound half, and of the sequence numbers only the one it acknowledges. -/
theorem readMessage_keeps {max : Nat} {s t : State} (h : readMessage max s = .ok t) :
    t.params = s.params ∧ t.cfg = s.cfg ∧ t.outb = s.outb ∧ t.inb.peerSeq = s.inb.peerSeq := by
  rcases readMessage_cases max s with ⟨_, e⟩ | ⟨_, e⟩ <;> cases e.symm.trans h <;> exact ⟨rfl, rfl, rfl, rfl⟩

/-! ## Every instruction -/

/-- What an instruction leaves alone of the parameters, the configuration and the three sequence numbers. -/
structure IdentityFrame (i : Instr) (s t : State) : Prop where
  params : t.params = s.params
  cfg : (∀ baud, i ≠ .begin baud) → i ≠ .reset → t.cfg = s.cfg
  ourSeq : (∀ buf, i ≠ .send buf) → i ≠ .reset → t.outb.ourSeq = s.outb.ourSeq
  ackSeq : (∀ max, i ≠ .read max) → i ≠ .reset → t.inb.ackSeq = s.inb.ackSeq
  peerSeq : isOperation i = true → i ≠ .tick → t.inb.peerSeq = s.inb.peerSeq

theorem identityFrame_of_query {i : Instr} {s t : State} (h : OnlyPortsChange s t) : IdentityFrame i s t := by
  rw [h]; exact ⟨rfl, fun _ _ => rfl, fun _ _ => rfl, fun _ _ => rfl, fun _ _ => rfl⟩

/-- `TICK`, the internal steps and the frame kinds: the peer's number is theirs to write. -/
theorem identityFrame_of_link {i : Instr} {s t : State} (hi : i = .tick ∨ isOperation i = false) (h : IdentityKept s t) :
    IdentityFrame i s t :=
  ⟨h.params, fun _ _ => h.cfg, fun _ _ => h.ourSeq, fun _ _ => h.ackSeq,
   fun hop hne => absurd hop (by simp [hi.resolve_left hne])⟩

theorem exec_identityFrame {i : Instr} {s t : State} (h : exec i s = .next t) : IdentityFrame i s t := by
  cases i with
  | begin baud =>
    obtain ⟨_, _, rfl⟩ := exec_begin_eq_next h
    exact ⟨rfl, fun hne => absurd rfl (hne baud), fun _ _ => rfl, fun _ _ => rfl, fun _ _ => rfl⟩
  | tick =>
    obtain ⟨_, u, hu, rfl⟩ := exec_tick_eq_next h
    exact identityFrame_of_link (.inl rfl) ((tickPhases_identityKept hu).trans ⟨rfl, rfl, rfl, rfl⟩)
  | send buf =>
    obtain ⟨u, hu, rfl⟩ := exec_send_eq_next h
    obtain ⟨params, cfg, inb⟩ := sendMessage_keeps hu
    exact ⟨params, fun _ _ => cfg, fun hne => absurd rfl (hne buf), fun _ _ => congrArg _ inb, fun _ _ => congrArg _ inb⟩
  | read max =>
    obtain ⟨params, cfg, outb, peerSeq⟩ := readMessage_keeps (exec_read_eq_next h)
    exact ⟨params, fun _ _ => cfg, fun _ _ => congrArg _ outb, fun hne => absurd rfl (hne max), fun _ _ => peerSeq⟩
  | reset =>
    cases h
    exact ⟨rfl, fun _ hne => absurd rfl hne, fun _ hne => absurd rfl hne, fun _ hne => absurd rfl hne, fun hop => by cases hop⟩
  | rxDrain now => exact identityFrame_of_link (.inr rfl) (rxDrain_identityKept (finish_eq_next.1 h))
  | rxByte b now => exact identityFrame_of_link (.inr rfl) (rxByte_identityKept (finish_eq_next.1 h))
  | rxFrame n now =>
    exact identityFrame_of_link (.inr rfl) (rxFrame_identityKept (finish_eq_next.1 (whenInForm_eq_next.1 h).2))
  | ackHandling a now => cases h; exact identityFrame_of_link (.inr rfl) (ackHandling_identityKept a now s)
  | ewmaUpdate now => cases h; exact identityFrame_of_link (.inr rfl) ⟨rfl, rfl, rfl, rfl⟩
  | dataHandling q d now =>
    obtain ⟨hform, hdata⟩ := whenInForm_eq_next.1 h
    exact identityFrame_of_link (.inr rfl)
      (dataHandling_identityKept (wf_dataHandling_iff.1 hform).2 (finish_eq_next.1 hdata))
  | txSelect now => exact identityFrame_of_link (.inr rfl) (txSelectWhenEmpty_identityKept (finish_eq_next.1 h))
  | loadFrame msg =>
    obtain ⟨_, hload⟩ := whenInForm_eq_next.1 h
    split at hload
    case isTrue => exact identityFrame_of_link (.inr rfl) (loadFrame_identityKept (finish_eq_next.1 hload))
    case isFalse => cases hload
  | txPush => exact identityFrame_of_link (.inr rfl) (txPush_identityKept (finish_eq_next.1 h))
  | frameShort d => exact identityFrame_of_link (.inr rfl) (receiveNow_identityKept (whenInForm_eq_next.1 h).2)
  | frameAckOnly a o c => exact identityFrame_of_link (.inr rfl) (receiveNow_identityKept h)
  | frameData msg a o c => exact identityFrame_of_link (.inr rfl) (receiveNow_identityKept (whenInForm_eq_next.1 h).2)
  | frameLong d => exact identityFrame_of_link (.inr rfl) (receiveNow_identityKept (whenInForm_eq_next.1 h).2)
  | _ => exact identityFrame_of_query (exec_query_onlyPortsChange rfl h)

/-- Whatever a step fetches, it fetches it with the parameters the state has. -/
theorem step_params {s t : State} (h : step s = .next t) : t.params = s.params := by
  rw [step_eq] at h
  rcases fetch_cases s with ⟨_, e⟩ | ⟨_, _, _, e⟩ | ⟨_, _, _, _, _, e⟩ | ⟨_, _, _, e⟩ | ⟨_, _, _, _, _, _, _, e⟩ |
    ⟨_, _, _, _, _, _, _, e⟩ <;> rw [e] at h
  · exact (exec_identityFrame h).params
  · cases h; rfl
  · exact (exec_identityFrame h).params
  · cases h; rfl
  · exact (exec_identityFrame h).params
  · cases h

/-- Settles O55. -/
theorem onlyBeginWritesConfiguration : Obligations.OnlyBeginWritesConfiguration :=
  ⟨fun _ _ _ h => ⟨(exec_identityFrame h).params, (exec_identityFrame h).cfg⟩, fun _ _ => step_params⟩

/-- Settles O56. -/
theorem sequenceNumberWriters : Obligations.SequenceNumberWriters := fun _ _ _ h hne =>
  ⟨fun hsend => (exec_identityFrame h).ourSeq hsend hne, fun hread => (exec_identityFrame h).ackSeq hread hne,
   (exec_identityFrame h).peerSeq⟩

end Sys2Proof.Machine
end

section
/-! The invariant (10_state.md R41 to R46) is kept by every step. Each shared operation keeps it on its own; what is fetched keeps it
then, coded operation by coded operation. -/

namespace Sys2Proof.Machine

/-! ## Buffers in canonical form -/

/-- Contents of the buffer `b` as `Inv.buffers` wants them. -/
def CanonicalFor (b : Buffer) (m : Memory) : Prop := m.wf = true ∧ memBelow (capacity b) m = true

theorem canonicalFor_nil (b : Buffer) : CanonicalFor b [] := ⟨rfl, rfl⟩

theorem CanonicalFor.write {b : Buffer} {m : Memory} (h : CanonicalFor b m) {i : Nat} {bs : List Byte}
    (hi : i + bs.length ≤ capacity b) : CanonicalFor b (memWriteBytes m i bs) :=
  ⟨memWriteBytes_wf i bs h.1, memWriteBytes_below bs h.2 hi⟩

theorem Inv.canonicalFor {s : State} (hs : Inv s) (b : Buffer) : CanonicalFor b (getBuf s b) := hs.buffers b

/-- New contents for one buffer. -/
theorem Inv.buffers_setBuf {s : State} (hs : Inv s) {b : Buffer} {m : Memory} (hm : CanonicalFor b m) (b' : Buffer) :
    CanonicalFor b' (getBuf (setBuf s b m) b') := by
  by_cases hb : b' = b
  · subst hb; rwa [getBuf_setBuf_same]
  · rw [getBuf_setBuf_ne s m hb]; exact hs.canonicalFor b'

/-! ## What the invariant does not speak of -/

theorem OnlyPortsChange.inv {s t : State} (h : OnlyPortsChange s t) (hs : Inv s) : Inv t := by
  rw [h]; exact { hs with }

/-! ## The receive path -/

/-- `rx_buf` and `rx_wp` may take any values that R46 allows. -/
theorem Inv.setRx {s : State} (hs : Inv s) {m : Memory} {wp : BitVec 9} (hm : CanonicalFor .rx m)
    (hwp : wp.toNat < Config.bufCap) (hzero : ∀ a, a < wp.toNat → memReadByte m a ≠ Config.delim) :
    Inv (setRxWp (setBuf s .rx m) wp) :=
  { hs with buffers := hs.buffers_setBuf hm, rxWpRange := hwp, rxNoZero := hzero }

/-- E1 and E2 have one effect: they count `rx_fail` (60_exceptions.md R241). -/
theorem Inv.of_rxFail {s : State} (hs : Inv s) : Inv (raiseError .malformedFrame s) :=
  have ⟨rxOk, _, txOk, txFail, retries⟩ := hs.counters
  { hs with counters := ⟨rxOk, countUp_lt _ _, txOk, txFail, retries⟩ }

theorem Inv.of_goodFrame {s : State} (hs : Inv s) (now : Time) : Inv (goodFrame now s) :=
  have ⟨_, rxFail, txOk, txFail, retries⟩ := hs.counters
  { hs with counters := ⟨countUp_lt _ _, rxFail, txOk, txFail, retries⟩ }

/-- An acknowledged message leaves the outbound half idle and cleared. -/
theorem Inv.of_messageAcknowledged {s : State} (hs : Inv s) (now : Time) : Inv (messageAcknowledged now s) :=
  have ⟨rxOk, rxFail, _, txFail, retries⟩ := hs.counters
  { hs with
    outgoingRange := Nat.zero_le _
    retryRange := Nat.zero_le _
    counters := ⟨rxOk, rxFail, countUp_lt _ _, txFail, retries⟩
    idleCleared := fun _ => ⟨rfl, rfl⟩ }

theorem Inv.of_ackHandling {s : State} (hs : Inv s) (a : Byte) (now : Time) : Inv (ackHandling a now s) := by
  rcases ackHandling_cases a now s with ⟨_, _, e⟩ | ⟨_, e⟩ <;> rw [e]
  · exact hs.of_messageAcknowledged now
  · exact hs

/-- A data payload's message is 1 to 248 bytes, so a stash that takes it is not empty, and R45 says nothing of it. -/
theorem Inv.of_dataHandling {q : Byte} {d : List Byte} {s t : State} (hs : Inv s) (hlo : Config.hdrLen < d.length)
    (hhi : d.length ≤ Config.maxPayload) (h : dataHandling q d s = .ok t) : Inv t := by
  rcases dataHandling_cases q s hhi with ⟨_, _, e⟩ | ⟨_, _, e⟩ | ⟨_, e⟩ <;> cases e.symm.trans h
  · exact hs
  · exact { hs with }
  · simp only [Config.hdrLen, Config.maxPayload] at hlo hhi
    have hlen : (payloadMsg d).length = d.length - 4 := by simp [payloadMsg]
    have hnat : (BitVec.ofNat 8 (payloadMsg d).length).toNat = d.length - 4 := by
      rw [BitVec.toNat_ofNat, hlen]; omega
    have hcap : 0 + (payloadMsg d).length ≤ capacity .incoming := by
      simp only [capacity, Config.maxMsg]; omega
    exact { hs with
      buffers := hs.buffers_setBuf ((hs.canonicalFor .incoming).write hcap)
      incomingRange := by simp only [hnat, Config.maxMsg]; omega
      ackCommitted := fun hzero => by
        have := congrArg BitVec.toNat hzero
        simp only [hnat, BitVec.ofNat_eq_ofNat, BitVec.toNat_ofNat] at this
        omega }

theorem Inv.of_receivePayload {d : List Byte} {now : Time} {s t : State} (hs : Inv s) (h : receivePayload d now s = .ok t) :
    Inv t := by
  have good := (hs.of_goodFrame now).of_ackHandling (payloadAck d) now
  rcases receivePayload_cases d now s with ⟨_, e⟩ | ⟨_, _, _, e⟩ | ⟨_, _, e⟩ | ⟨hlo, hhi, _, e⟩
  · cases e.symm.trans h; exact hs.of_rxFail
  · cases e.symm.trans h; exact hs.of_rxFail
  · cases e.symm.trans h; exact good
  · exact good.of_dataHandling hlo hhi (e.symm.trans h)

/-- With the write pointer back at 0 the frame is decoded in place: nothing counts as accumulated any more. -/
theorem Inv.of_rxFrame {n : Nat} {now : Time} {s t : State} (hs : Inv s) (hwp : s.ptr.rxWp = 0) (h : rxFrame n now s = .ok t) :
    Inv t := by
  obtain ⟨d, hd, hpayload⟩ := rxFrame_eq_ok h
  have hcap : 0 + d.length ≤ capacity .rx := by simpa [capacity] using hd
  have none_below : ∀ {a}, ¬ a < s.ptr.rxWp.toNat := by simp [hwp]
  have decoded : Inv (setRxWp (setBuf s .rx (memWriteBytes (getBuf s .rx) 0 d)) s.ptr.rxWp) :=
    hs.setRx ((hs.canonicalFor .rx).write hcap) hs.rxWpRange fun _ ha => absurd ha none_below
  exact decoded.of_receivePayload hpayload

/-- The three ends of `RX_BYTE`: a frame or a wrap empties `rx_buf`, and a byte that is added is no delimiter. -/
theorem Inv.of_rxByte {b : Byte} {now : Time} {s t : State} (hs : Inv s) (h : rxByte b now s = .ok t) : Inv t := by
  have hcap : s.ptr.rxWp.toNat + [b].length ≤ capacity .rx := hs.rxWpRange
  have canonical : CanonicalFor .rx (memWriteByte (getBuf s .rx) s.ptr.rxWp.toNat b) :=
    (hs.canonicalFor .rx).write (bs := [b]) hcap
  have emptied : Inv (setRxWp (setBuf s .rx (memWriteByte (getBuf s .rx) s.ptr.rxWp.toNat b)) 0) :=
    hs.setRx canonical (by decide) fun a ha => absurd ha (Nat.not_lt_zero a)
  obtain ⟨_, rfl, ⟨_, e⟩ | ⟨_, _, e⟩ | ⟨hb, hlt, e⟩⟩ := rxByte_cases (b := b) (now := now) hs.rxWpRange
  · exact emptied.of_rxFrame rfl (e.symm.trans h)
  · cases e.symm.trans h; exact emptied
  · cases e.symm.trans h
    have hnext : (s.ptr.rxWp + 1).toNat = s.ptr.rxWp.toNat + 1 := by
      simp only [Config.bufCap] at hlt
      simp only [BitVec.toNat_add, BitVec.ofNat_eq_ofNat, BitVec.toNat_ofNat]
      omega
    refine hs.setRx canonical (hnext ▸ hlt) fun a ha => ?_
    rcases Nat.lt_succ_iff_lt_or_eq.1 (hnext ▸ ha) with hold | rfl
    · rw [memReadByte_writeByte_ne _ _ hold.ne]
      exact hs.rxNoZero a hold
    · rw [memReadByte_writeByte_same b (hs.buffers .rx).1]
      exact hb

theorem Inv.of_rxDrain {now : Time} {s t : State} (hs : Inv s) (h : rxDrain now s = .ok t) : Inv t :=
  drainLoop_induction (P := Inv) (fun _ _ hu => { hu with }) (fun _ _ _ hu => hu.of_rxByte) hs h

/-! ## Recorded intervals stay under the cap (45_link_tx.md R222, 00_scope.md R7) -/

/-- The doubling loop leaves at the cap. -/
theorem backoffLoop_le (cap : Time) (n : Nat) (t : Time) (h : t ≤ cap) : backoffLoop cap n t ≤ cap := by
  induction n generalizing t with
  | zero => exact h
  | succ n ih =>
    simp only [backoffLoop]
    split
    · exact BitVec.le_refl cap
    · exact ih _ (BitVec.not_lt.1 ‹_›)

/-- At any baud rate a byte takes at most a second. -/
theorem configFor_usPerByte_le (baud : Nat) : (configFor baud).usPerByte.toNat ≤ 1000000 := by
  have hdiv : 1000000 / (baud / 10) ≤ 1000000 := Nat.div_le_self _ _
  simp only [configFor, BitVec.toNat_ofNat]
  exact (Nat.mod_le _ _).trans hdiv

/-- Six frame times of any `tx_len` are below 100000 byte times, and neither product wraps. -/
theorem backoffBase_le (txLen : BitVec 9) (baud : Nat) :
    backoffBase txLen (configFor baud).usPerByte ≤ (configFor baud).retryAbsMax := by
  have hus := configFor_usPerByte_le baud
  change backoffBase txLen (configFor baud).usPerByte ≤ (configFor baud).usPerByte * 100000
  generalize (configFor baud).usPerByte = us at hus ⊢
  have hcap : (us * 100000).toNat = us.toNat * 100000 := by
    simp only [BitVec.toNat_mul, BitVec.ofNat_eq_ofNat, BitVec.toNat_ofNat]; omega
  have hfactor : (BitVec.ofNat 64 Config.retryInitialMultiplier * (txLen.setWidth 64 + 1)).toNat = 6 * (txLen.toNat + 1) := by
    simp only [Config.retryInitialMultiplier, BitVec.toNat_mul, BitVec.toNat_add, BitVec.toNat_setWidth,
      BitVec.ofNat_eq_ofNat, BitVec.toNat_ofNat]
    omega
  have hle : 6 * (txLen.toNat + 1) * us.toNat ≤ us.toNat * 100000 := by
    rw [Nat.mul_comm us.toNat]
    exact Nat.mul_le_mul_right _ (by omega)
  rw [BitVec.le_def, backoffBase, BitVec.toNat_mul, hfactor, hcap, Nat.mod_eq_of_lt (by omega)]
  exact hle

theorem Inv.backoff_le {s : State} (hs : Inv s) (hc : s.cfg.configured = true) (n : Nat) : backoff s n ≤ s.cfg.retryAbsMax := by
  obtain ⟨baud, _, hcfg⟩ := hs.configuration hc
  rw [backoff, hcfg]
  exact backoffLoop_le _ n _ (backoffBase_le _ baud)

/-- Arming the retry timer records the interval it issues, in `timeout` and in the high-water mark. -/
theorem Inv.of_armRetry {s : State} (hs : Inv s) (hc : s.cfg.configured = true) : Inv (armRetry s) := by
  have hcap := hs.backoff_le hc s.outb.retryCount.toNat
  refine { hs with timeoutRecorded := ?_, intervalCapped := ?_, unissued := fun hn => ?_ }
  · simp only [armRetry]
    split
    · exact BitVec.le_refl _
    · exact BitVec.not_lt.1 ‹_›
  · simp only [armRetry]
    split
    · exact hcap
    · exact hs.intervalCapped
  · exact absurd (hc.symm.trans hn) (by decide)

/-! ## The transmit path -/

/-- A frame is a payload of 4 to 252 bytes on the wire (30_encoding.md R80, R83). -/
theorem frameBytes_eq_encodeWire {msg : List Byte} (hm : msg.length ≤ Config.maxMsg) (a o : Byte) :
    ∃ payload, Config.hdrLen ≤ payload.length ∧ payload.length ≤ Config.maxPayload ∧ frameBytes msg a o = encodeWire payload := by
  refine ⟨buildPayload msg a o, ?_, ?_, rfl⟩ <;>
    simp only [buildPayload, payloadOf, payloadHead, List.length_append, List.length_cons, List.length_nil, Config.hdrLen,
      Config.maxPayload, Config.maxMsg] at * <;> omega

/-- A loaded frame is the one complete frame of R43, whatever was in the buffer. -/
theorem Inv.of_loadFrame {msg : List Byte} {s t : State} (hs : Inv s) (hm : msg.length ≤ Config.maxMsg)
    (h : loadFrame msg s = .ok t) : Inv t := by
  obtain ⟨frame, hframe, hlen, rfl⟩ := loadFrame_eq_ok h
  obtain ⟨payload, hlo, hhi, hwire⟩ := frameBytes_eq_encodeWire hm s.inb.ackSeq s.outb.ourSeq
  have hcap : 0 + frame.length ≤ capacity .tx := by simpa [capacity] using hlen
  have hpos : 0 < frame.length := by rw [hframe, frameBytes]; simp
  have hnat : (BitVec.ofNat 9 frame.length).toNat = frame.length := by
    simp only [Config.bufCap] at hlen
    rw [BitVec.toNat_ofNat]; omega
  have readback : memReadBytes (memWriteBytes (getBuf s .tx) 0 frame) 0 (BitVec.ofNat 9 frame.length).toNat = frame := by
    rw [hnat]; exact memReadBytes_writeBytes 0 frame (hs.buffers .tx).1
  have hfw : frame = encodeWire payload := hframe.trans hwire
  exact { hs with
    buffers := hs.buffers_setBuf ((hs.canonicalFor .tx).write hcap)
    txFrame := .inr ⟨payload, hlo, hhi, hfw ▸ hnat, readback.trans hfw, by
      rw [BitVec.lt_def, hnat]; exact hpos⟩ }

theorem Inv.of_frameLoaded {s : State} (hs : Inv s) (now : Time) : Inv (frameLoaded now s) := { hs with }

/-- Loading the message of an occupied stash on a configured engine; the stash is not idle, so `last_tx_time` is free. -/
theorem Inv.of_loadDataFrame {now : Time} {s t : State} (hs : Inv s) (hc : s.cfg.configured = true)
    (hbusy : s.outb.outgoingLen ≠ 0) (h : loadDataFrame now s = .ok t) : Inv t := by
  obtain ⟨u, hload, rfl⟩ := loadDataFrame_eq_ok h
  have hmsg : (firstBytes s .outgoing s.outb.outgoingLen.toNat).length ≤ Config.maxMsg := by
    simpa [firstBytes] using hs.outgoingRange
  have stamped : Inv { s with outb := { s.outb with lastTxTime := now } } :=
    { hs with idleCleared := fun hidle => absurd hidle hbusy }
  have hcu : u.cfg.configured = true := (congrArg ConfigRegs.configured (loadFrame_identityKept hload).cfg).trans hc
  exact ((stamped.of_loadFrame hmsg hload).of_frameLoaded now).of_armRetry hcu

theorem Inv.of_branchRetransmit {now : Time} {s t : State} (hs : Inv s) (hc : s.cfg.configured = true)
    (hbusy : s.outb.outgoingLen ≠ 0) (h : branchRetransmit now s = .ok t) : Inv t := by
  have ⟨rxOk, rxFail, txOk, txFail, _⟩ := hs.counters
  obtain ⟨u, rfl, rfl | ⟨hcount, hload⟩⟩ := branchRetransmit_eq_ok h
  · exact { hs with
      outgoingRange := Nat.zero_le _
      retryRange := Nat.zero_le _
      counters := ⟨rxOk, rxFail, txOk, countUp_lt _ _, countUp_lt _ _⟩
      idleCleared := fun _ => ⟨rfl, rfl⟩ }
  · have counted : Inv { s with stat := { s.stat with txTotalRetries := countUp s.params s.stat.txTotalRetries },
                                outb := { s.outb with retryCount := s.outb.retryCount + 1 } } :=
      { hs with
        retryRange := hcount
        counters := ⟨rxOk, rxFail, txOk, txFail, countUp_lt _ _⟩
        idleCleared := fun hidle => absurd hidle hbusy }
    exact counted.of_loadDataFrame hc hbusy hload

theorem Inv.of_branchAck {now : Time} {s t : State} (hs : Inv s) (h : branchAck now s = .ok t) : Inv t := by
  obtain ⟨u, hload, rfl⟩ := branchAck_eq_ok h
  exact (hs.of_loadFrame (Nat.zero_le _) hload).of_frameLoaded now

theorem Inv.of_txSelect {now : Time} {s t : State} (hs : Inv s) (hc : s.cfg.configured = true) (h : txSelect now s = .ok t) :
    Inv t := by
  have busy : 0 < s.outb.outgoingLen → s.outb.outgoingLen ≠ 0 := fun hlt hzero => by simp [hzero] at hlt
  rcases txSelect_cases now s with ⟨hpend, e⟩ | ⟨_, hlt, _, e⟩ | ⟨_, _, _, e⟩ | ⟨_, _, _, _, e⟩ | ⟨_, _, _, _, e⟩ <;>
    rw [e] at h
  · have hlt : 0 < s.outb.outgoingLen := by
      rw [outboundPending, Bool.and_eq_true, decide_eq_true_iff] at hpend
      exact hpend.1
    exact hs.of_loadDataFrame hc (busy hlt) h
  · exact hs.of_branchRetransmit hc (busy hlt) h
  · exact hs.of_branchAck h
  · exact hs.of_branchAck h
  · cases h; exact hs

theorem Inv.of_txSelectWhenEmpty {now : Time} {s t : State} (hs : Inv s) (hc : s.cfg.configured = true)
    (h : txSelectWhenEmpty now s = .ok t) : Inv t := by
  unfold txSelectWhenEmpty at h
  split at h
  · exact hs.of_txSelect hc h
  · cases h; exact hs

/-- Handing over part of the frame keeps it whole in the buffer; handing over its last byte empties the buffer. -/
theorem Inv.of_advanceTx {k : Nat} {s : State} (hs : Inv s) (hbusy : s.ptr.txLen ≠ 0)
    (hk : k ≤ s.ptr.txLen.toNat - s.ptr.txRp.toNat) : Inv (advanceTx k s) := by
  obtain ⟨hempty, _⟩ | ⟨payload, hlo, hhi, hlen, hbytes, hrp⟩ := hs.txFrame
  · exact absurd hempty hbusy
  simp only [advanceTx]
  split
  case isTrue => exact { hs with txFrame := .inl ⟨rfl, rfl⟩ }
  case isFalse hne =>
    have hrp' : s.ptr.txRp + BitVec.ofNat 9 k < s.ptr.txLen := by
      have hne' := mt BitVec.eq_of_toNat_eq hne
      rw [BitVec.lt_def] at hrp ⊢
      rw [BitVec.toNat_add, BitVec.toNat_ofNat] at hne' ⊢
      omega
    exact { hs with txFrame := .inr ⟨payload, hlo, hhi, hlen, hbytes, hrp'⟩ }

theorem Inv.of_txPush {s t : State} (hs : Inv s) (h : txPush s = .ok t) : Inv t := by
  obtain rfl | ⟨hbusy, k, env, hk, rfl⟩ := txPush_eq_ok h
  · exact hs
  · have asked : Inv { s with env := env } := { hs with }
    exact asked.of_advanceTx hbusy hk

/-! ## Instructions -/

theorem Inv.of_tickPhases {s t : State} (hs : Inv s) (hc : s.cfg.configured = true) (h : tickPhases s = .ok t) : Inv t := by
  obtain ⟨u, v, hdrain, hselect, hpush⟩ := tickPhases_eq_ok h
  have sampled := onlyPortsChange_clkSample s
  have hcu : u.cfg = s.cfg := (sampled.identityKept.trans (rxDrain_identityKept hdrain)).cfg
  exact (((sampled.inv hs).of_rxDrain hdrain).of_txSelectWhenEmpty (hcu ▸ hc) hselect).of_txPush hpush

/-- An accepted message fits its stash; an empty one leaves the outbound half idle and cleared, as it was. -/
theorem Inv.of_sendMessage {buf : List Byte} {s t : State} (hs : Inv s) (h : sendMessage buf s = .ok t) : Inv t := by
  rcases sendMessage_cases buf s with ⟨_, e⟩ | ⟨hidle, u, e, hu⟩ <;> cases e.symm.trans h
  · exact hs
  · have sampled : Inv (clkSample s).2 := (onlyPortsChange_clkSample s).inv hs
    have hlen : (sendTaken buf).length ≤ 248 := by simp [sendTaken, Config.maxMsg]
    rw [hu]
    exact { sampled with
      buffers := sampled.buffers_setBuf ((sampled.canonicalFor .outgoing).write (by simpa [capacity, Config.maxMsg] using hlen))
      outgoingRange := by
        simp only [Config.maxMsg, BitVec.toNat_ofNat]; omega
      retryRange := hs.retryRange
      idleCleared := fun _ => hs.idleCleared hidle
      timeoutRecorded := by simpa using hs.timeoutRecorded }

/-- A message read is a message acknowledged (R45). -/
theorem Inv.of_readMessage {max : Nat} {s t : State} (hs : Inv s) (h : readMessage max s = .ok t) : Inv t := by
  rcases readMessage_cases max s with ⟨_, e⟩ | ⟨_, e⟩ <;> cases e.symm.trans h
  · exact { hs with }
  · exact { hs with incomingRange := Nat.zero_le _, ackCommitted := fun _ => rfl }

/-- Before `BEGIN` no interval has been issued, so any cap will do. -/
theorem Inv.of_configFor {s : State} (hs : Inv s) (hc : s.cfg.configured = false) {baud : Nat} (hb : baudInRange baud = true) :
    Inv { s with cfg := configFor baud } :=
  { hs with
    configuration := fun _ => ⟨baud, hb, rfl⟩
    intervalCapped := by
      change s.stat.maxRetryIntervalIssued ≤ _
      rw [hs.unissued hc]
      exact Nat.zero_le _
    unissued := fun hn => absurd hn.symm Bool.false_ne_true }

/-- A reset leaves bytes of every buffer's size, whatever they are, and the registers at their reset values. -/
theorem inv_of_exec_reset {s t : State} (h : exec .reset s = .next t) : Inv t := by
  cases h
  have free : ∀ k b, CanonicalFor b (freeContents k b) := fun _ b => (canonicalFor_nil b).write (by simp)
  exact inv_of_registers_reset s.params _ _ _ fun b => by cases b <;> exact free _ _

/-- What a step can fetch besides a reset: an operation the decoder reads from a transaction, or the class of a code byte. -/
inductive IsFetchable : Instr → Prop
  | begin (baud : Nat) : IsFetchable (.begin baud)
  | tick : IsFetchable .tick
  | send (buf : List Byte) : IsFetchable (.send buf)
  | read (max : Nat) : IsFetchable (.read max)
  | query {i : Instr} (hi : isQuery i = true) : IsFetchable i

theorem noOperand_eq_ok {code : Byte} {operand : List Byte} {i j : Instr} (h : noOperand code operand i = .ok j) : i = j := by
  unfold noOperand at h
  split at h
  · exact Except.ok.inj h
  · cases h

/-- The arms are in the order of the codes: the reserved ones and a code too wide, the four that write registers, the queries without and
with an operand. -/
theorem isFetchable_of_decodeOperation {code : Byte} {operand : List Byte} {i : Instr}
    (h : decodeOperation code operand = .ok i) : IsFetchable i := by
  unfold decodeOperation at h
  split at h
  case h_1 | h_15 | h_16 | h_17 => cases h
  case h_2 => cases h; exact .begin _
  case h_3 => cases noOperand_eq_ok h; exact .tick
  case h_4 => cases h; exact .send _
  case h_5 => cases h; exact .read _
  case h_6 | h_7 | h_8 | h_9 | h_13 => cases noOperand_eq_ok h; exact .query rfl
  case h_10 | h_11 | h_12 | h_14 => cases h; exact .query rfl

theorem isFetchable_of_decodeCommand {t : List Byte} {i : Instr} (h : decodeCommand t = .ok i) : IsFetchable i := by
  cases t with
  | nil => cases h
  | cons code operand => exact isFetchable_of_decodeOperation h

theorem isFetchable_decodeCobsCode (b : Byte) : IsFetchable (decodeCobsCode b) := by
  unfold decodeCobsCode
  refine .query ?_
  split
  · rfl
  · split <;> rfl

theorem Inv.of_exec {i : Instr} {s t : State} (hs : Inv s) (hi : IsFetchable i) (h : exec i s = .next t) : Inv t := by
  cases hi with
  | begin baud =>
    obtain ⟨hc, hb, rfl⟩ := exec_begin_eq_next h
    exact { hs.of_configFor hc hb with }
  | tick =>
    obtain ⟨hc, u, hu, rfl⟩ := exec_tick_eq_next h
    exact { hs.of_tickPhases hc hu with }
  | send buf =>
    obtain ⟨u, hu, rfl⟩ := exec_send_eq_next h
    exact { hs.of_sendMessage hu with }
  | read max => exact hs.of_readMessage (exec_read_eq_next h)
  | query hq => exact (exec_query_onlyPortsChange hq h).inv hs

/-- Settles O53: whatever a step fetches keeps the invariant, and fetching changes the host's side and the decoder unit only. -/
theorem stepKeepsInvariant : Obligations.StepKeepsInvariant := by
  intro s t hs h
  have fetched : ∀ host cobs, Inv { s with host := host, cobs := cobs } := fun _ _ => { hs with }
  rw [step_eq] at h
  rcases fetch_cases s with ⟨_, e⟩ | ⟨_, _, _, e⟩ | ⟨b, _, _, _, _, e⟩ | ⟨_, _, _, e⟩ | ⟨_, _, _, _, _, _, hd, e⟩ |
    ⟨_, _, _, _, _, _, _, e⟩ <;> rw [e] at h
  · exact inv_of_exec_reset h
  · cases h; exact fetched _ _
  · exact (fetched _ _).of_exec (isFetchable_decodeCobsCode b) h
  · cases h; exact hs
  · exact (fetched _ _).of_exec (isFetchable_of_decodeCommand hd) h
  · cases h

end Sys2Proof.Machine
end

section
/-! Within the buffers' bounds (20_memory.md R69). The only fault is an access beyond a buffer, and the ranges of the invariant are what
keeps every access inside: an encoded frame fits `tx_buf`, the stashes' lengths and `rx_wp` are below their capacities. First which
pseudocode answers a state, then which operations a step can run never fault. -/

namespace Sys2Proof.Machine

/-- The pseudocode runs to its end: no access of it leaves a buffer. -/
def Answers {α : Type} (r : Except Fault α) : Prop := ∃ a, r = .ok a

theorem answers_ok {α : Type} (a : α) : Answers (.ok a : Except Fault α) := ⟨a, rfl⟩

theorem Answers.andThen {α β : Type} {r : Except Fault α} {k : α → Except Fault β} (hr : Answers r)
    (hk : ∀ a, r = .ok a → Answers (k a)) : Answers (Machine.andThen r k) := by
  obtain ⟨a, rfl⟩ := hr
  exact hk a rfl

/-- The outcome is a next state or a refusal. -/
def Faultless (o : Host.Outcome State Fault Refusal) : Prop := ∀ f, o ≠ .fault f

theorem faultless_next (s : State) : Faultless (.next s) := fun _ h => by cases h

theorem faultless_refused (w : Refusal) : Faultless (.refused w) := fun _ h => by cases h

theorem Answers.finish {r : Except Fault State} (hr : Answers r) : Faultless (Machine.finish r) := by
  obtain ⟨t, rfl⟩ := hr
  exact faultless_next t

theorem Faultless.whenConfigured {o : Host.Outcome State Fault Refusal} (ho : Faultless o) (s : State) :
    Faultless (Machine.whenConfigured s o) := by
  unfold Machine.whenConfigured
  split
  · exact ho
  · exact faultless_refused _

theorem Faultless.whenInForm {o : Host.Outcome State Fault Refusal} (ho : Faultless o) (ok : Bool) (n : String) :
    Faultless (Machine.whenInForm ok n o) := by
  unfold Machine.whenInForm
  split
  · exact ho
  · exact faultless_refused _

/-! ## The length of an encoded frame (40_cobs.md R101) -/

/-- While no block can fill up, encoding adds the one code byte of the open block: a 0x00 closes that block and opens the next. -/
theorem cobsEncFrom_length {input blk : List Byte} (h : blk.length + input.length ≤ 253) :
    (cobsEncFrom input blk).length = blk.length + input.length + 1 := by
  induction input generalizing blk with
  | nil => simp [cobsEncFrom, cobsClose]
  | cons b bs ih =>
    simp only [List.length_cons] at h
    have not_full : blk.length + 2 ≠ 0xFF := by omega
    unfold cobsEncFrom
    rw [if_neg not_full]
    split
    case isTrue =>
      have hrest : (cobsEncFrom bs []).length = bs.length + 1 := by simpa using ih (blk := []) (by simp; omega)
      simp only [List.length_append, cobsClose, List.length_cons, hrest]
      omega
    case isFalse =>
      have hrest := ih (blk := blk ++ [b]) (by simp; omega)
      simp only [List.length_append, List.length_cons, List.length_nil] at hrest ⊢
      omega

/-- Any payload of up to 252 bytes is on the wire within the 256 bytes of `tx_buf`: one code byte and the delimiter more. -/
theorem encodeWire_length_le {payload : List Byte} (h : payload.length ≤ Config.maxPayload) :
    (encodeWire payload).length ≤ Config.bufCap := by
  simp only [Config.maxPayload] at h
  have hlen := cobsEncFrom_length (input := payload) (blk := []) (by simp; omega)
  simp only [encodeWire, cobsEnc, List.length_append, hlen, List.length_nil, List.length_cons, Config.bufCap]
  omega

theorem frameBytes_length_le {msg : List Byte} (hm : msg.length ≤ Config.maxMsg) (a o : Byte) :
    (frameBytes msg a o).length ≤ Config.bufCap := by
  obtain ⟨_, _, hhi, hwire⟩ := frameBytes_eq_encodeWire hm a o
  exact hwire ▸ encodeWire_length_le hhi

/-! ## The receive path -/

theorem rxFrame_answers {n : Nat} (now : Time) (s : State) (hn : n ≤ Config.bufCap) : Answers (rxFrame n now s) :=
  rxFrame_eq now s hn ▸ receivePayload_ok _ _ _

/-- A frame ends at or before the last slot of `rx_buf`. -/
theorem rxByte_answers (b : Byte) (now : Time) {s : State} (h : s.ptr.rxWp.toNat < Config.bufCap) : Answers (rxByte b now s) := by
  obtain ⟨_, _, ⟨_, e⟩ | ⟨_, _, e⟩ | ⟨_, _, e⟩⟩ := rxByte_cases (b := b) (now := now) h <;> rw [e]
  · exact rxFrame_answers now _ h
  · exact answers_ok _
  · exact answers_ok _

/-- Each byte finds `rx_wp` in range, because the byte before it kept the invariant. -/
theorem Inv.drainLoop_answers {s : State} (hs : Inv s) (now : Time) (fuel : Nat) : Answers (drainLoop now fuel s) := by
  induction fuel generalizing s with
  | zero => exact answers_ok s
  | succ fuel ih =>
    have polled : Inv (pollArrivals s) := pollArrivals_eq s ▸ { hs with }
    simp only [drainLoop]
    split
    case h_1 => exact answers_ok _
    case h_2 b rest _ =>
      have taken : Inv (tReadLeaves (pollArrivals s) rest) := { polled with }
      exact (rxByte_answers b now taken.rxWpRange).andThen fun _ hbyte => ih (taken.of_rxByte hbyte)

theorem Inv.rxDrain_answers {s : State} (hs : Inv s) (now : Time) : Answers (rxDrain now s) := hs.drainLoop_answers now _

/-! ## The transmit path -/

theorem loadFrame_answers {msg : List Byte} (s : State) (hm : msg.length ≤ Config.maxMsg) : Answers (loadFrame msg s) :=
  ⟨_, loadFrame_ok (frameBytes_length_le hm _ _)⟩

theorem loadDataFrame_answers (now : Time) {s : State} (h : s.outb.outgoingLen.toNat ≤ Config.maxMsg) :
    Answers (loadDataFrame now s) := by
  have hmsg : (memReadBytes s.buf.outgoing 0 s.outb.outgoingLen.toNat).length ≤ Config.maxMsg := by simpa using h
  obtain ⟨_, _, e⟩ := loadDataFrame_ok (now := now) h (frameBytes_length_le hmsg _ _)
  exact ⟨_, e⟩

/-- Counting the retransmission leaves the stash as it is. -/
theorem branchRetransmit_answers (now : Time) {s : State} (h : s.outb.outgoingLen.toNat ≤ Config.maxMsg) :
    Answers (branchRetransmit now s) := by
  simp only [branchRetransmit]
  split
  · exact answers_ok _
  · exact loadDataFrame_answers now h

/-- An ack-only frame and a keepalive are both the frame of the empty message. -/
theorem branchAck_answers (now : Time) (s : State) : Answers (branchAck now s) :=
  (loadFrame_answers s (Nat.zero_le _)).andThen fun _ _ => answers_ok _

theorem txSelectWhenEmpty_answers (now : Time) {s : State} (h : s.outb.outgoingLen.toNat ≤ Config.maxMsg) :
    Answers (txSelectWhenEmpty now s) := by
  unfold txSelectWhenEmpty
  split
  case isFalse => exact answers_ok s
  case isTrue =>
    rcases txSelect_cases now s with ⟨_, e⟩ | ⟨_, _, _, e⟩ | ⟨_, _, _, e⟩ | ⟨_, _, _, _, e⟩ | ⟨_, _, _, _, e⟩ <;> rw [e]
    · exact loadDataFrame_answers now h
    · exact branchRetransmit_answers now h
    · exact branchAck_answers now s
    · exact branchAck_answers now s
    · exact answers_ok s

/-- The transmit pointers stay inside `tx_buf`, because what it holds is at most one encoded frame (10_state.md R43). -/
theorem TxHoldsOneFrame.pointers_le {s : State} (h : TxHoldsOneFrame s) :
    s.ptr.txLen.toNat ≤ Config.bufCap ∧ s.ptr.txRp.toNat ≤ s.ptr.txLen.toNat := by
  obtain ⟨hlen, hrp⟩ | ⟨_, _, hhi, hlen, _, hrp⟩ := h
  · simp [hlen, hrp]
  · exact ⟨hlen ▸ encodeWire_length_le hhi, (BitVec.lt_def.1 hrp).le⟩

theorem Inv.txPush_answers {s : State} (hs : Inv s) : Answers (txPush s) := by
  obtain ⟨hcap, hrp⟩ := hs.txFrame.pointers_le
  rcases txPush_cases s hcap hrp with ⟨_, e⟩ | ⟨_, _, _, e⟩ <;> exact ⟨_, e⟩

/-! ## What a step can run -/

/-- Each phase of `TICK` starts from a state of the invariant, the one the phase before it left. -/
theorem Inv.tickPhases_answers {s : State} (hs : Inv s) (hc : s.cfg.configured = true) : Answers (tickPhases s) := by
  have sample := onlyPortsChange_clkSample s
  have sampled : Inv (clkSample s).2 := sample.inv hs
  refine (sampled.rxDrain_answers _).andThen fun u hdrain => ?_
  have drained : Inv u := sampled.of_rxDrain hdrain
  have hcfg : u.cfg = s.cfg := (sample.identityKept.trans (rxDrain_identityKept hdrain)).cfg
  refine (txSelectWhenEmpty_answers _ drained.outgoingRange).andThen fun v hselect => ?_
  exact (drained.of_txSelectWhenEmpty (hcfg ▸ hc) hselect).txPush_answers

theorem sendMessage_answers (buf : List Byte) (s : State) : Answers (sendMessage buf s) := by
  rcases sendMessage_cases buf s with ⟨_, e⟩ | ⟨_, _, e, _⟩ <;> exact ⟨_, e⟩

theorem readMessage_answers (max : Nat) (s : State) : Answers (readMessage max s) := by
  rcases readMessage_cases max s with ⟨_, e⟩ | ⟨_, e⟩ <;> exact ⟨_, e⟩

theorem exec_begin_faultless (baud : Nat) (s : State) : Faultless (exec (.begin baud) s) := by
  change Faultless (execBegin baud s)
  unfold execBegin
  split
  · exact faultless_refused _
  · split
    · exact faultless_next _
    · exact faultless_refused _

/-- `TICK` tests `configured` first, and only a configured engine's invariant carries over its phases. -/
theorem Inv.exec_tick_faultless {s : State} (hs : Inv s) : Faultless (exec .tick s) := by
  change Faultless (execTick s)
  unfold execTick whenConfigured
  split
  · exact ((hs.tickPhases_answers ‹_›).andThen fun _ _ => answers_ok _).finish
  · exact faultless_refused _

/-- A query touches no buffer. -/
theorem exec_query_faultless {i : Instr} (hi : isQuery i = true) (s : State) : Faultless (exec i s) := by
  cases i with
  | isOpen | clkSample | clearToSend | clearToRead | stats | crc16 | cobsEnc | cobsDec | backoff =>
    exact (faultless_next _).whenConfigured _
  | avgRetryCount | crcStep | cobsDelim | cobsFull => exact faultless_next _
  | cobsRun c => exact (faultless_next _).whenInForm _ _
  | _ => exact absurd hi Bool.false_ne_true

theorem Inv.exec_faultless {i : Instr} {s : State} (hs : Inv s) (hi : IsFetchable i) : Faultless (exec i s) := by
  cases hi with
  | begin baud => exact exec_begin_faultless baud s
  | tick => exact hs.exec_tick_faultless
  | send buf => exact ((sendMessage_answers buf s).andThen fun _ _ => answers_ok _).finish.whenConfigured s
  | read max => exact (readMessage_answers max s).finish.whenConfigured s
  | query hq => exact exec_query_faultless hq s

/-- Settles O54: what a step fetches it runs on a state of the invariant, and fetching touches no buffer. -/
theorem invariantStatesNeverFault : Obligations.InvariantStatesNeverFault := by
  intro s hs
  change Faultless (step s)
  have fetched : ∀ host cobs, Inv { s with host := host, cobs := cobs } := fun _ _ => { hs with }
  rw [step_eq]
  rcases fetch_cases s with ⟨_, e⟩ | ⟨_, _, _, e⟩ | ⟨b, _, _, _, _, e⟩ | ⟨_, _, _, e⟩ | ⟨_, _, _, _, _, _, hd, e⟩ |
    ⟨_, _, _, _, _, _, _, e⟩ <;> rw [e]
  · exact faultless_next _
  · exact faultless_next _
  · exact (fetched _ _).exec_faultless (isFetchable_decodeCobsCode b)
  · exact faultless_next _
  · exact (fetched _ _).exec_faultless (isFetchable_of_decodeCommand hd)
  · exact faultless_refused _

end Sys2Proof.Machine
end

section
/-! The frame being sent (20_memory.md R77 (a), 10_state.md R43). The receive path and the host operations leave `tx_buf` and `tx_len` as
they are; of the transmit path only `TX_PUSH` works on a buffer in use, and it reads the buffer
and can empty it. -/

namespace Sys2Proof.Machine

/-- `tx_buf` and `tx_len` are as they were. -/
structure TxKept (s t : State) : Prop where
  bytes : t.buf.tx = s.buf.tx
  len : t.ptr.txLen = s.ptr.txLen

theorem TxKept.refl (s : State) : TxKept s s := ⟨rfl, rfl⟩

theorem TxKept.trans {s t u : State} (h : TxKept s t) (h' : TxKept t u) : TxKept s u :=
  ⟨h'.bytes.trans h.bytes, h'.len.trans h.len⟩

theorem OnlyPortsChange.txKept {s t : State} (h : OnlyPortsChange s t) : TxKept s t := by rw [h]; exact ⟨rfl, rfl⟩

/-! ## The receive path and the host operations -/

theorem ackHandling_txKept (a : Byte) (now : Time) (s : State) : TxKept s (ackHandling a now s) := by
  rcases ackHandling_cases a now s with ⟨_, _, e⟩ | ⟨_, e⟩ <;> rw [e] <;> exact ⟨rfl, rfl⟩

theorem dataHandling_txKept {q : Byte} {d : List Byte} {s t : State} (hd : d.length ≤ Config.maxPayload)
    (h : dataHandling q d s = .ok t) : TxKept s t := by
  rcases dataHandling_cases q s hd with ⟨_, _, e⟩ | ⟨_, _, e⟩ | ⟨_, e⟩ <;> cases e.symm.trans h <;> exact ⟨rfl, rfl⟩

theorem receivePayload_txKept {d : List Byte} {now : Time} {s t : State} (h : receivePayload d now s = .ok t) : TxKept s t := by
  obtain ⟨_, _, hptr, _, _, _, _, hbuf⟩ := receivePayload_keeps h
  exact ⟨by rw [hbuf], by rw [hptr]⟩

theorem receiveNow_txKept {d : List Byte} {s t : State} (h : receiveNow d s = .next t) : TxKept s t :=
  receivePayload_txKept (finish_eq_next.1 h)

theorem rxFrame_txKept {n : Nat} {now : Time} {s t : State} (h : rxFrame n now s = .ok t) : TxKept s t := by
  obtain ⟨_, _, hpayload⟩ := rxFrame_eq_ok h
  exact TxKept.trans (by exact ⟨rfl, rfl⟩) (receivePayload_txKept hpayload)

theorem rxByte_txKept {b : Byte} {now : Time} {s t : State} (h : rxByte b now s = .ok t) : TxKept s t := by
  obtain ⟨_, rfl, ⟨_, e⟩ | ⟨_, _, e⟩ | ⟨_, _, e⟩⟩ := rxByte_cases (b := b) (now := now) (rxWp_lt_of_rxByte_ok h)
  · exact TxKept.trans (by exact ⟨rfl, rfl⟩) (rxFrame_txKept (e.symm.trans h))
  · cases e.symm.trans h; exact ⟨rfl, rfl⟩
  · cases e.symm.trans h; exact ⟨rfl, rfl⟩

theorem rxDrain_txKept {now : Time} {s t : State} (h : rxDrain now s = .ok t) : TxKept s t :=
  drainLoop_induction (P := TxKept s) (fun _ _ hu => hu.trans ⟨rfl, rfl⟩) (fun _ _ _ hu hbyte => hu.trans (rxByte_txKept hbyte))
    (TxKept.refl s) h

theorem sendMessage_txKept {buf : List Byte} {s t : State} (h : sendMessage buf s = .ok t) : TxKept s t := by
  rcases sendMessage_cases buf s with ⟨_, e⟩ | ⟨_, u, e, hu⟩ <;> cases e.symm.trans h
  · exact TxKept.refl s
  · rw [hu, clkSample_eq]; exact ⟨rfl, rfl⟩

theorem readMessage_txKept {max : Nat} {s t : State} (h : readMessage max s = .ok t) : TxKept s t := by
  rcases readMessage_cases max s with ⟨_, e⟩ | ⟨_, e⟩ <;> cases e.symm.trans h <;> exact ⟨rfl, rfl⟩

/-! ## The transmit path, the buffer in use -/

/-- `tx_buf` is as it was, and `tx_len` is or fell to 0: what R77 (a) allows. -/
structure TxUnaltered (s t : State) : Prop where
  bytes : t.buf.tx = s.buf.tx
  len : t.ptr.txLen = s.ptr.txLen ∨ t.ptr.txLen = 0

theorem TxKept.unaltered {s t : State} (h : TxKept s t) : TxUnaltered s t := ⟨h.bytes, .inl h.len⟩

theorem TxUnaltered.respond {s t : State} (h : TxUnaltered s t) (r : Response) : TxUnaltered s (Machine.respond t r) := ⟨h.bytes, h.len⟩

/-- "When `tx_len != 0` none is tested" (45_link_tx.md R210). -/
theorem txSelectWhenEmpty_of_busy (now : Time) {s : State} (hbusy : s.ptr.txLen ≠ 0) : txSelectWhenEmpty now s = .ok s := if_neg hbusy

theorem advanceTx_unaltered (k : Nat) (s : State) : TxUnaltered s (advanceTx k s) := by
  refine ⟨by rw [advanceTx_buf], ?_⟩
  simp only [advanceTx]
  split
  · exact .inr rfl
  · exact .inl rfl

theorem txPush_unaltered {s t : State} (h : txPush s = .ok t) : TxUnaltered s t := by
  obtain rfl | ⟨_, k, _, _, rfl⟩ := txPush_eq_ok h
  · exact (TxKept.refl _).unaltered
  · obtain ⟨bytes, len⟩ := advanceTx_unaltered k _
    exact ⟨bytes, len⟩

/-- A frame still in the buffer after the drain keeps `TX_SELECT` from loading another. -/
theorem tickPhases_unaltered {s t : State} (hbusy : s.ptr.txLen ≠ 0) (h : tickPhases s = .ok t) : TxUnaltered s t := by
  obtain ⟨u, v, hdrain, hselect, hpush⟩ := tickPhases_eq_ok h
  have drained : TxKept s u := (onlyPortsChange_clkSample s).txKept.trans (rxDrain_txKept hdrain)
  obtain rfl : u = v := Except.ok.inj ((txSelectWhenEmpty_of_busy _ (drained.len ▸ hbusy)).symm.trans hselect)
  obtain ⟨bytes, len⟩ := txPush_unaltered hpush
  exact ⟨bytes.trans drained.bytes, drained.len ▸ len⟩

/-! ## Every instruction but the reset -/

theorem exec_txUnaltered {i : Instr} {s t : State} (h : exec i s = .next t) (hi : i ≠ .reset) (hbusy : s.ptr.txLen ≠ 0) :
    TxUnaltered s t := by
  cases i with
  | reset => exact absurd rfl hi
  | begin baud =>
    obtain ⟨_, _, rfl⟩ := exec_begin_eq_next h
    exact TxKept.unaltered ⟨rfl, rfl⟩
  | tick =>
    obtain ⟨_, u, hu, rfl⟩ := exec_tick_eq_next h
    exact (tickPhases_unaltered hbusy hu).respond _
  | send buf =>
    obtain ⟨u, hu, rfl⟩ := exec_send_eq_next h
    exact (sendMessage_txKept hu).unaltered.respond _
  | read max => exact (readMessage_txKept (exec_read_eq_next h)).unaltered
  | rxDrain now => exact (rxDrain_txKept (finish_eq_next.1 h)).unaltered
  | rxByte b now => exact (rxByte_txKept (finish_eq_next.1 h)).unaltered
  | rxFrame n now => exact (rxFrame_txKept (finish_eq_next.1 (whenInForm_eq_next.1 h).2)).unaltered
  | ackHandling a now => cases h; exact (ackHandling_txKept a now s).unaltered
  | ewmaUpdate now => cases h; exact TxKept.unaltered ⟨rfl, rfl⟩
  | dataHandling q d now =>
    obtain ⟨hform, hdata⟩ := whenInForm_eq_next.1 h
    exact (dataHandling_txKept (wf_dataHandling_iff.1 hform).2 (finish_eq_next.1 hdata)).unaltered
  | txSelect now =>
    cases (txSelectWhenEmpty_of_busy now hbusy).symm.trans (finish_eq_next.1 h)
    exact (TxKept.refl s).unaltered
  | loadFrame msg =>
    obtain ⟨_, hload⟩ := whenInForm_eq_next.1 h
    cases (if_neg hbusy).symm.trans hload
  | txPush => exact txPush_unaltered (finish_eq_next.1 h)
  | frameAckOnly a o c => exact (receiveNow_txKept h).unaltered
  | frameShort | frameData | frameLong => exact (receiveNow_txKept (whenInForm_eq_next.1 h).2).unaltered
  | _ => exact (exec_query_onlyPortsChange rfl h).txKept.unaltered

/-- Settles O59. -/
theorem frameBeingSentIsNotAltered : Obligations.FrameBeingSentIsNotAltered := fun _ _ _ h hi hbusy =>
  have ⟨bytes, len⟩ := exec_txUnaltered h hi hbusy
  ⟨fun a => congrArg (memReadByte · a) bytes, len⟩

end Sys2Proof.Machine
end

section
/-! The COBS codec (40_cobs.md R100, R103): the decoder on one block, and from it that decoding undoes encoding. -/

namespace Sys2Proof.Machine

/-! ## The decoder's loop, block by block -/

/-- Inside a block data bytes are copied, and the block is over when its count is used up. -/
theorem cobsDecFrom_data {data : List Byte} (hd : Config.delim ∉ data) (rest : List Byte) (code : Byte) :
    cobsDecFrom (data ++ rest) code data.length = data ++ cobsDecFrom rest code 0 := by
  induction data with
  | nil => rfl
  | cons b bs ih =>
    obtain ⟨hb, hbs⟩ := List.ne_and_not_mem_of_not_mem_cons hd
    simp [cobsDecFrom, hb.symm, ih hbs]

/-- The code byte of a block of up to 254 data bytes is their number and one more: it does not wrap. -/
theorem cobsCode_toNat {blk : List Byte} (hlen : blk.length ≤ 254) : (BitVec.ofNat 8 (blk.length + 1)).toNat = blk.length + 1 := by
  rw [BitVec.toNat_ofNat]
  omega

/-- A code byte is never taken for a delimiter (40_cobs.md R102). -/
theorem cobsCode_ne_delim {blk : List Byte} (hlen : blk.length ≤ 254) : BitVec.ofNat 8 (blk.length + 1) ≠ Config.delim := by
  intro h
  have := congrArg BitVec.toNat h
  rw [cobsCode_toNat hlen] at this
  simp [Config.delim] at this

/-- A closed block decodes to the zero the block before it owes and its own data bytes. -/
theorem cobsDecFrom_cobsClose {blk : List Byte} (hd : Config.delim ∉ blk) (hlen : blk.length ≤ 254) (rest : List Byte) (code : Byte) :
    cobsDecFrom (cobsClose blk ++ rest) code 0 =
      owedZero code ++ blk ++ cobsDecFrom rest (BitVec.ofNat 8 (blk.length + 1)) 0 := by
  have hblock : (BitVec.ofNat 8 (blk.length + 1)).toNat - 1 = blk.length := by rw [cobsCode_toNat hlen]; rfl
  rw [cobsClose, List.cons_append, cobsDecFrom, if_neg (cobsCode_ne_delim hlen), if_pos rfl, hblock, cobsDecFrom_data hd,
    List.append_assoc]
  rfl

/-! ## Decoding what was encoded (40_cobs.md R102, R106) -/

/-- A closed block holds no delimiter. -/
theorem delim_notMem_cobsClose {blk : List Byte} (hd : Config.delim ∉ blk) (hlen : blk.length ≤ 254) :
    Config.delim ∉ cobsClose blk :=
  List.not_mem_cons_of_ne_of_not_mem (cobsCode_ne_delim hlen).symm hd

/-- The three ends of a byte in the encoder's loop: a delimiter closes the block, a full block is closed, or the byte joins the block,
which stays within 253 bytes. -/
theorem cobsEncFrom_cons_cases (b : Byte) (bs : List Byte) {blk : List Byte} (hd : Config.delim ∉ blk) (hlen : blk.length ≤ 253) :
    (b = Config.delim ∧ cobsEncFrom (b :: bs) blk = cobsClose blk ++ cobsEncFrom bs []) ∨
    (Config.delim ∉ blk ++ [b] ∧ (blk ++ [b]).length = 254 ∧
      cobsEncFrom (b :: bs) blk = cobsClose (blk ++ [b]) ++ cobsEncFrom bs []) ∨
    (Config.delim ∉ blk ++ [b] ∧ (blk ++ [b]).length ≤ 253 ∧ cobsEncFrom (b :: bs) blk = cobsEncFrom bs (blk ++ [b])) := by
  by_cases hb : b = Config.delim
  · exact .inl ⟨hb, by rw [cobsEncFrom, if_pos hb]⟩
  have hdb : Config.delim ∉ blk ++ [b] := by simp [hd, Ne.symm hb]
  by_cases hfull : blk.length + 2 = 0xFF
  · exact .inr (.inl ⟨hdb, by simp; omega, by rw [cobsEncFrom, if_neg hb, if_pos hfull]⟩)
  · exact .inr (.inr ⟨hdb, by simp; omega, by rw [cobsEncFrom, if_neg hb, if_neg hfull]⟩)

theorem delim_notMem_cobsEncFrom (input : List Byte) {blk : List Byte} (hd : Config.delim ∉ blk) (hlen : blk.length ≤ 253) :
    Config.delim ∉ cobsEncFrom input blk := by
  induction input generalizing blk with
  | nil => exact delim_notMem_cobsClose hd (by omega)
  | cons b bs ih =>
    have hrest : Config.delim ∉ cobsEncFrom bs [] := ih List.not_mem_nil (Nat.zero_le _)
    rcases cobsEncFrom_cons_cases b bs hd hlen with ⟨_, e⟩ | ⟨hdb, hl, e⟩ | ⟨hdb, hl, e⟩ <;> rw [e]
    · exact List.not_mem_append (delim_notMem_cobsClose hd (by omega)) hrest
    · exact List.not_mem_append (delim_notMem_cobsClose hdb hl.le) hrest
    · exact ih hdb hl

theorem delim_notMem_cobsEnc (input : List Byte) : Config.delim ∉ cobsEnc input :=
  delim_notMem_cobsEncFrom input List.not_mem_nil (Nat.zero_le _)

/-- A closed block of fewer than 254 bytes owes a zero: its code is not 0xFF. -/
theorem owedZero_of_lt {blk : List Byte} (hlen : blk.length ≤ 253) : owedZero (BitVec.ofNat 8 (blk.length + 1)) = [Config.delim] := by
  refine if_neg fun h => ?_
  have := congrArg BitVec.toNat h
  rw [cobsCode_toNat (by omega)] at this
  simp at this
  omega

/-- A full block owes none. -/
theorem owedZero_of_full {blk : List Byte} (hlen : blk.length = 254) : owedZero (BitVec.ofNat 8 (blk.length + 1)) = [] := by
  rw [hlen]; rfl

/-- What the encoder writes from an open block on decodes to the zero owed before it, that block, and the input. -/
theorem cobsDecFrom_cobsEncFrom (input : List Byte) {blk : List Byte} (hd : Config.delim ∉ blk) (hlen : blk.length ≤ 253)
    (code : Byte) : cobsDecFrom (cobsEncFrom input blk) code 0 = owedZero code ++ blk ++ input := by
  induction input generalizing blk code with
  | nil =>
    have h := cobsDecFrom_cobsClose hd (by omega) [] code
    simpa [cobsEncFrom, cobsDecFrom] using h
  | cons b bs ih =>
    have hrest : ∀ c, cobsDecFrom (cobsEncFrom bs []) c 0 = owedZero c ++ bs := fun c => by
      simpa using ih List.not_mem_nil (Nat.zero_le _) c
    rcases cobsEncFrom_cons_cases b bs hd hlen with ⟨rfl, e⟩ | ⟨hdb, hl, e⟩ | ⟨hdb, hl, e⟩ <;> rw [e]
    · rw [cobsDecFrom_cobsClose hd (by omega), hrest, owedZero_of_lt hlen]; rfl
    · rw [cobsDecFrom_cobsClose hdb hl.le, hrest, owedZero_of_full hl]; simp
    · rw [ih hdb hl]; simp

/-- Decoding undoes encoding (40_cobs.md R106). -/
theorem cobsDec_cobsEnc (input : List Byte) : cobsDec (cobsEnc input) = input :=
  cobsDecFrom_cobsEncFrom input List.not_mem_nil (Nat.zero_le _) 0xFF#8

/-! ## One code byte at a time (30_encoding.md R84; log 22) -/

/-- A block whose data bytes are all there. -/
theorem cobsBlock_full {data : List Byte} (hd : Config.delim ∉ data) (rest : List Byte) :
    cobsBlock data.length (data ++ rest) = (data, rest, false) := by
  induction data with
  | nil => rfl
  | cons b bs ih =>
    obtain ⟨hb, hbs⟩ := List.ne_and_not_mem_of_not_mem_cons hd
    simp [cobsBlock, hb.symm, ih hbs]

/-- A block with a delimiter or the end of the input among its data bytes. -/
theorem cobsBlock_cut {k : Nat} {data tail : List Byte} (hd : Config.delim ∉ data) (hk : data.length < k)
    (htail : tail = [] ∨ tail.head? = some Config.delim) : cobsBlock k (data ++ tail) = (data, [], true) := by
  induction data generalizing k with
  | nil =>
    obtain ⟨k, rfl⟩ := Nat.exists_eq_add_one_of_ne_zero (Nat.ne_of_gt hk)
    cases tail with
    | nil => rfl
    | cons b bs =>
      obtain rfl : b = Config.delim := by simpa using htail
      rfl
  | cons b bs ih =>
    obtain ⟨hb, hbs⟩ := List.ne_and_not_mem_of_not_mem_cons hd
    obtain ⟨k, rfl⟩ := Nat.exists_eq_add_one_of_ne_zero (Nat.ne_of_gt (Nat.zero_lt_of_lt hk))
    simp [cobsBlock, hb.symm, ih hbs (Nat.lt_of_succ_lt_succ hk)]

/-- Both classes of code byte that announce a block run it. -/
theorem exec_eq_cobsCodeBlock {i : Instr} {c : Byte} (h : (i = .cobsRun c ∧ i.wf = true) ∨ (i = .cobsFull ∧ c = 0xFF#8)) (s : State) :
    exec i s = .next (cobsCodeBlock c s) := by
  rcases h with ⟨rfl, hwf⟩ | ⟨rfl, rfl⟩
  · exact if_pos hwf
  · rfl

/-- Settles O11: what `cobsBlock` answers on a full and on a cut block. -/
theorem codeByteRunsItsBlock : Obligations.CodeByteRunsItsBlock := by
  intro s c i hi
  rw [exec_eq_cobsCodeBlock hi]
  refine ⟨fun data rest hinput hlen hd => ?_, fun data tail hinput hlen hd htail => ?_, rfl⟩
  · have hblock := cobsBlock_full hd rest
    rw [hlen, ← hinput] at hblock
    rw [cobsCodeBlock, hblock]; rfl
  · have hblock := cobsBlock_cut hd hlen htail
    rw [← hinput] at hblock
    rw [cobsCodeBlock, hblock]; rfl

end Sys2Proof.Machine
end

section
/-! Frames on the wire (30_encoding.md R80 to R83): the fields of a payload, the kind its length selects, the split at the delimiter. -/

namespace Sys2Proof.Machine

/-! ## A payload and its fields (30_encoding.md R81) -/

theorem payloadOf_eq (msg : List Byte) (a o : Byte) (c : U16) : payloadOf msg a o c = msg ++ [a, o, crcHi c, crcLo c] := by
  simp [payloadOf, payloadHead]

@[simp] theorem payloadOf_length (msg : List Byte) (a o : Byte) (c : U16) : (payloadOf msg a o c).length = msg.length + 4 := by
  simp [payloadOf_eq]

/-- The two CRC bytes are the CRC, high byte first. -/
@[simp] theorem crcHi_append_crcLo (c : U16) : (crcHi c ++ crcLo c : U16) = c := by
  rw [crcHi, crcLo, BitVec.extractLsb'_append_extractLsb'_eq_extractLsb' (by rfl)]
  exact BitVec.extractLsb'_eq_self

@[simp] theorem crcHi_append (x y : Byte) : crcHi (x ++ y) = x := by
  rw [crcHi, BitVec.extractLsb'_append_eq_of_le le_rfl]
  exact BitVec.extractLsb'_eq_self

@[simp] theorem crcLo_append (x y : Byte) : crcLo (x ++ y) = y := by
  rw [crcLo, BitVec.extractLsb'_append_eq_of_add_le le_rfl]
  exact BitVec.extractLsb'_eq_self

@[simp] theorem payloadMsg_payloadOf (msg : List Byte) (a o : Byte) (c : U16) : payloadMsg (payloadOf msg a o c) = msg := by
  simp [payloadMsg, payloadOf_eq]

@[simp] theorem payloadAck_payloadOf (msg : List Byte) (a o : Byte) (c : U16) : payloadAck (payloadOf msg a o c) = a := by
  simp [payloadAck, payloadByte, payloadOf_eq]

@[simp] theorem payloadSeq_payloadOf (msg : List Byte) (a o : Byte) (c : U16) : payloadSeq (payloadOf msg a o c) = o := by
  simp [payloadSeq, payloadByte, payloadOf_eq]

@[simp] theorem payloadCrc_payloadOf (msg : List Byte) (a o : Byte) (c : U16) : payloadCrc (payloadOf msg a o c) = c := by
  simp [payloadCrc, payloadByte, payloadOf_eq]

/-- Every payload of at least 4 bytes is put together from fields. -/
theorem exists_payloadOf {d : List Byte} (h : 4 ≤ d.length) : ∃ msg a o c, d = payloadOf msg a o c := by
  obtain ⟨a, o, hi, lo, htail⟩ : ∃ a o hi lo, d.drop (d.length - 4) = [a, o, hi, lo] :=
    List.length_eq_four.1 (by rw [List.length_drop]; omega)
  refine ⟨d.take (d.length - 4), a, o, hi ++ lo, ?_⟩
  rw [payloadOf_eq, crcHi_append, crcLo_append, ← htail, List.take_append_drop]

/-! ## The kind of a frame (30_encoding.md R82) -/

theorem decodeFrame_short {d : List Byte} (h : d.length < 4) : decodeFrame d = .frameShort d := if_pos h

theorem decodeFrame_ackOnly (a o : Byte) (c : U16) : decodeFrame (payloadOf [] a o c) = .frameAckOnly a o c := by
  simp [decodeFrame, Config.hdrLen]

theorem decodeFrame_data {msg : List Byte} (hlo : 1 ≤ msg.length) (hhi : msg.length ≤ 248) (a o : Byte) (c : U16) :
    decodeFrame (payloadOf msg a o c) = .frameData msg a o c := by
  have hne : msg ≠ [] := List.ne_nil_of_length_pos hlo
  simp [decodeFrame, Config.hdrLen, Config.maxPayload, hne, hhi]

theorem decodeFrame_long {d : List Byte} (h : 252 < d.length) : decodeFrame d = .frameLong d := by
  have not_short : ¬d.length < 4 := by omega
  have not_ackOnly : d.length ≠ 4 := by omega
  have not_data : ¬d.length ≤ 252 := by omega
  simp [decodeFrame, Config.hdrLen, Config.maxPayload, not_short, not_ackOnly, not_data]

/-- Settles O5: a payload of at least 4 bytes is its fields put together. -/
theorem lengthSelectsFrameKind : Obligations.LengthSelectsFrameKind := by
  refine fun d => ⟨fun h => decodeFrame_short (by omega), fun h => ?_, fun hlo hhi => ?_, fun h => decodeFrame_long (by omega)⟩
  · obtain ⟨msg, a, o, c, rfl⟩ := exists_payloadOf h.ge
    obtain rfl : msg = [] := by simpa using h
    exact ⟨a, o, c, decodeFrame_ackOnly a o c, rfl⟩
  · obtain ⟨msg, a, o, c, rfl⟩ := exists_payloadOf (by omega : 4 ≤ d.length)
    rw [payloadOf_length] at hlo hhi
    exact ⟨msg, a, o, c, decodeFrame_data (by omega) (by omega) a o c, by simp, rfl⟩

/-! ## The wire (30_encoding.md R80, R86) -/

/-- The first delimiter ends the frame. -/
theorem splitDelim_append {before : List Byte} (h : Config.delim ∉ before) (after : List Byte) :
    splitDelim (before ++ Config.delim :: after) = some (before, after) := by
  induction before with
  | nil => rfl
  | cons b bs ih =>
    obtain ⟨hb, hbs⟩ := List.ne_and_not_mem_of_not_mem_cons h
    simp [splitDelim, hb.symm, ih hbs]

/-- A payload on the wire reads back as the frame of its kind, whatever follows. -/
theorem decode_encodeWire (payload rest : List Byte) : decode .wire (encodeWire payload ++ rest) = .ok (decodeFrame payload, rest) := by
  simp [decode, encodeWire, splitDelim_append (delim_notMem_cobsEnc payload), cobsDec_cobsEnc]

/-- Settles O2: a well-formed frame is the kind its payload's length selects. -/
theorem wireFrameRoundTrip : Obligations.WireFrameRoundTrip := by
  intro i rest hwf hspace
  have reads : ∀ {payload}, decodeFrame payload = i → decode .wire (encodeWire payload ++ rest) = .ok (i, rest) :=
    fun h => h ▸ decode_encodeWire _ rest
  cases i with
  | frameShort d => exact reads (decodeFrame_short (wf_frameShort_iff.1 hwf))
  | frameAckOnly a o c => exact reads (decodeFrame_ackOnly a o c)
  | frameData msg a o c =>
    obtain ⟨hlo, hhi⟩ := wf_frameData_iff.1 hwf
    exact reads (decodeFrame_data hlo hhi a o c)
  | frameLong d => exact reads (decodeFrame_long (wf_frameLong_iff.1 hwf))
  | _ => cases hspace

end Sys2Proof.Machine
end

section
/-! Code bytes and host commands (30_encoding.md R84, R87, R96, R97; log 1, 2): what each is read as, and what a step refuses. -/

namespace Sys2Proof.Machine

/-! ## Code bytes -/

theorem decodeCobsCode_run {c : Byte} (h : (Instr.cobsRun c).wf = true) : decodeCobsCode c = .cobsRun c := by
  obtain ⟨not_delim, not_full⟩ := wf_cobsRun_iff.1 h
  rw [decodeCobsCode, if_neg not_delim, if_neg not_full]

/-- Settles O3: the classes are 0x00, 0xFF and every other byte. -/
theorem cobsCodeRoundTrip : Obligations.CobsCodeRoundTrip := by
  refine ⟨fun i rest hwf hspace => ?_, fun b => ?_⟩
  · cases i with
    | cobsDelim => rfl
    | cobsFull => rfl
    | cobsRun c => exact congrArg (fun j => Except.ok (j, rest)) (decodeCobsCode_run hwf)
    | _ => cases hspace
  · by_cases delim : b = 0x00#8
    · subst delim; exact ⟨rfl, rfl, rfl⟩
    by_cases full : b = 0xFF#8
    · subst full; exact ⟨rfl, rfl, rfl⟩
    have hwf : (Instr.cobsRun b).wf = true := wf_cobsRun_iff.2 ⟨delim, full⟩
    rw [decodeCobsCode_run hwf]
    exact ⟨hwf, rfl, rfl⟩

/-! ## Numbers as operand bytes (30_encoding.md R97; log 1) -/

/-- Enough fuel gives all digits. -/
theorem natOfBytes_bytesOfNatFuel {fuel n : Nat} (h : n ≤ fuel) : natOfBytes (bytesOfNatFuel fuel n) = n := by
  induction fuel generalizing n with
  | zero => exact (Nat.le_zero.1 h).symm
  | succ fuel ih =>
    rw [bytesOfNatFuel]
    split
    case isTrue hzero => exact hzero.symm
    case isFalse hpos =>
      have hrest : n / 256 ≤ fuel := by omega
      rw [natOfBytes, ih hrest, BitVec.toNat_ofNat]
      exact Nat.mod_add_div n 256

@[simp] theorem natOfBytes_bytesOfNat (n : Nat) : natOfBytes (bytesOfNat n) = n := natOfBytes_bytesOfNatFuel le_rfl

/-! ## Commands (30_encoding.md R96) -/

/-- The operation of a command byte and its operand bytes is what the transaction reads as. -/
theorem decode_command_of_decodeOperation {code : Byte} {operand : List Byte} {i : Instr} (h : decodeOperation code operand = .ok i) :
    decode .command (code :: operand) = .ok (i, []) := by
  simp [decode, decodeCommand, h]

/-- Settles O1: the three commands with a number read its digits back; of the others the operand bytes are the operand. -/
theorem commandRoundTrip : Obligations.CommandRoundTrip := by
  intro i _ hspace
  cases i with
  | begin baud => exact decode_command_of_decodeOperation (congrArg (Except.ok ∘ Instr.begin) (natOfBytes_bytesOfNat baud))
  | read max => exact decode_command_of_decodeOperation (congrArg (Except.ok ∘ Instr.read) (natOfBytes_bytesOfNat max))
  | backoff k => exact decode_command_of_decodeOperation (congrArg (Except.ok ∘ Instr.backoff) (natOfBytes_bytesOfNat k))
  | send | crc16 | cobsEnc | cobsDec | tick | isOpen | clearToSend | clearToRead | stats | clkSample =>
    exact decode_command_of_decodeOperation rfl
  | _ => cases hspace

/-- Settles O4: each word runs through the decoder; the frame is vector 7 of 95_test_vectors.md. -/
theorem writtenWordsDecode : Obligations.WrittenWordsDecode := ⟨rfl, rfl, rfl, rfl, rfl, rfl, rfl⟩

/-! ## Transactions that are refused (30_encoding.md R87, R96; log 2) -/

/-- A transaction the decoder rejects is refused. -/
theorem step_of_rejected {s : State} {t : List Byte} {ts : List (List Byte)} {r : Reject} (hr : s.host.resetRequest = false)
    (ha : s.cobs.active = false) (hp : s.host.pending = t :: ts) (hd : decodeCommand t = .error r) :
    step s = .refused (refusalOf r) := by
  simp [step_eq, fetch, fetchCommand, decode, hr, ha, hp, hd]

theorem decodeOperation_reserved {code : Byte} (h : code = 0x00#8 ∨ code = 0x0E#8 ∨ code = 0x0F#8) (operand : List Byte) :
    decodeOperation code operand = .error (.reservedCode code) := by
  rcases h with rfl | rfl | rfl <;> rfl

/-- The codes are four bits wide. -/
theorem decodeOperation_tooWide {code : Byte} (h : 16 ≤ code.toNat) (operand : List Byte) :
    decodeOperation code operand = .error (.codeTooWide code) := by
  unfold decodeOperation
  split
  case h_17 => rfl
  all_goals omega

theorem noOperand_of_ne_nil (code : Byte) {operand : List Byte} (h : operand ≠ []) (i : Instr) :
    noOperand code operand i = .error (.operandNotTaken code) := if_neg h

/-- `TICK`, `IS_OPEN`, `CLEAR_TO_SEND`, `CLEAR_TO_READ`, `STATS` and `CLK_SAMPLE` take no operand (30_encoding.md R97). -/
theorem decodeOperation_operandNotTaken {code : Byte} (hc : code ∈ [0x02#8, 0x05#8, 0x06#8, 0x07#8, 0x08#8, 0x0C#8])
    {operand : List Byte} (h : operand ≠ []) : decodeOperation code operand = .error (.operandNotTaken code) := by
  simp only [List.mem_cons, List.not_mem_nil, or_false] at hc
  rcases hc with rfl | rfl | rfl | rfl | rfl | rfl <;> exact noOperand_of_ne_nil _ h _

/-- Settles O6: how the decoder rejects each of these is how the step refuses it. -/
theorem foreignTransactionsRefused : Obligations.ForeignTransactionsRefused := by
  intro s t ts hr ha hp
  have refuses : ∀ {r}, decodeCommand t = .error r → step s = .refused (refusalOf r) := step_of_rejected hr ha hp
  refine ⟨fun ht => ?_, fun code operand ht => ?_⟩ <;> subst ht
  · exact refuses rfl
  · exact ⟨fun hc => refuses (decodeOperation_reserved hc operand), fun hc => refuses (decodeOperation_tooWide hc operand),
      fun hc hne => refuses (decodeOperation_operandNotTaken hc hne)⟩

/-! ## Operands outside their row's form (log 20) -/

theorem whenInForm_of_not {ok : Bool} (h : ok = false) (n : String) (r : Host.Outcome State Fault Refusal) :
    whenInForm ok n r = .refused (.operandOutOfForm n) := by
  subst h; rfl

/-- Settles O7: the rows with a form test it first, and every operand of the other rows but `BEGIN` is in form. -/
theorem operandsOutOfFormRefused : Obligations.OperandsOutOfFormRefused := by
  intro s i hform not_begin
  cases i with
  | begin baud => exact absurd rfl (not_begin baud)
  | rxFrame | dataHandling | loadFrame | frameShort | frameData | frameLong | cobsRun =>
    exact ⟨_, whenInForm_of_not hform _ _⟩
  | _ => cases hform

end Sys2Proof.Machine
end

section
/-! The receiver at a delimiter (30_encoding.md R86, 44_link_rx.md R184): every byte is stored inside `rx_buf`, and a delimiter leaves
nothing accumulated. -/

namespace Sys2Proof.Machine

/-- `RX_BYTE` has room for its byte in a buffer of canonical form. -/
structure RxReady (s : State) : Prop where
  room : s.ptr.rxWp.toNat < 256
  wf : s.buf.rx.wf = true

/-- A frame leaves `rx_wp` as it was set for it, and `rx_buf` in canonical form. -/
theorem rxFrame_ok_keeps {n : Nat} {now : Time} {s t : State} (hwf : s.buf.rx.wf = true) (h : rxFrame n now s = .ok t) :
    t.ptr = s.ptr ∧ t.buf.rx.wf = true := by
  obtain ⟨d, _, hpayload⟩ := rxFrame_eq_ok h
  obtain ⟨_, _, hptr, _, _, _, _, hbuf⟩ := receivePayload_keeps hpayload
  refine ⟨hptr, ?_⟩
  rw [hbuf]
  exact memWriteBytes_wf 0 d hwf

/-- A byte is received whatever it is, and after a delimiter nothing is accumulated. -/
theorem RxReady.exec_rxByte {s : State} (hs : RxReady s) (b : Byte) (now : Time) :
    ∃ t, exec (.rxByte b now) s = .next t ∧ RxReady t ∧ (b = Config.delim → t.ptr.rxWp = 0) := by
  have stored : (memWriteByte s.buf.rx s.ptr.rxWp.toNat b).wf = true := memWriteByte_wf _ b hs.wf
  obtain ⟨t, ht⟩ := rxByte_answers b now hs.room
  refine ⟨t, finish_eq_next.2 ht, ?_⟩
  obtain ⟨_, rfl, ⟨_, e⟩ | ⟨hb, _, e⟩ | ⟨hb, hroom, e⟩⟩ := rxByte_cases (b := b) (now := now) hs.room
  · obtain ⟨hptr, hwf⟩ := rxFrame_ok_keeps stored (e.symm.trans ht)
    have emptied : t.ptr.rxWp = 0 := by rw [hptr]; rfl
    exact ⟨⟨by rw [emptied]; decide, hwf⟩, fun _ => emptied⟩
  · cases e.symm.trans ht
    exact ⟨⟨by simp, stored⟩, fun h => absurd h hb⟩
  · cases e.symm.trans ht
    have next_room : (s.ptr.rxWp + 1).toNat < 256 := by
      simp only [Config.bufCap] at hroom
      rw [BitVec.toNat_add]
      exact (Nat.mod_le _ _).trans_lt hroom
    exact ⟨⟨next_room, stored⟩, fun h => absurd h hb⟩

/-- Settles O31, by induction on the bytes before the delimiter. -/
theorem delimiterResynchronises : Obligations.DelimiterResynchronises := by
  intro s now bs hroom hwf
  induction bs generalizing s with
  | nil =>
    obtain ⟨t, hbyte, ready, emptied⟩ := RxReady.exec_rxByte ⟨hroom, hwf⟩ 0x00#8 now
    exact ⟨t, by simp [receiveBytes, hbyte], emptied rfl, ready.wf⟩
  | cons b bs ih =>
    obtain ⟨u, hbyte, ready, _⟩ := RxReady.exec_rxByte ⟨hroom, hwf⟩ b now
    obtain ⟨t, hrest, ht⟩ := ih u ready.room ready.wf
    exact ⟨t, by simp [receiveBytes, hbyte, hrest], ht⟩

end Sys2Proof.Machine
end

section
/-! The COBS operations (40_cobs.md R100 to R106): what the encoder and the decoder answer, the length of an encoding, and the decoder
run one code byte at a time. -/

namespace Sys2Proof.Machine

/-! ## What the two operations answer -/

theorem exec_cobsEnc {s : State} (hc : s.cfg.configured = true) (input : List Byte) :
    exec (.cobsEnc input) s = .next (respond s (.bytes (cobsEnc input))) :=
  if_pos hc

theorem exec_cobsDec {s : State} (hc : s.cfg.configured = true) (input : List Byte) :
    exec (.cobsDec input) s = .next (respond s (.bytesLen (cobsDec input) (cobsDec input).length)) :=
  if_pos hc

/-! ## The decoder looks at nothing from the first delimiter on (40_cobs.md R105) -/

theorem cobsDecFrom_append_delim (before after : List Byte) (code : Byte) (block : Nat) :
    cobsDecFrom (before ++ Config.delim :: after) code block = cobsDecFrom before code block := by
  induction before generalizing code block with
  | nil => simp [cobsDecFrom]
  | cons b bs ih => simp only [List.cons_append, cobsDecFrom, ih]

theorem cobsDec_append_delim (before after : List Byte) : cobsDec (before ++ Config.delim :: after) = cobsDec before :=
  cobsDecFrom_append_delim before after _ _

/-- Settles O8: the decoder stops at the appended delimiter, and what stands before it decodes to the input. -/
theorem cobsRoundTrip : Obligations.CobsRoundTrip := by
  intro s bs hc
  have decoded : cobsDec (cobsEnc bs ++ [0x00#8]) = bs := (cobsDec_append_delim (cobsEnc bs) []).trans (cobsDec_cobsEnc bs)
  refine ⟨cobsEnc bs, exec_cobsEnc hc bs, ?_, delim_notMem_cobsEnc bs⟩
  rw [exec_cobsDec hc, decoded]
  rfl

/-! ## The length of an encoding (40_cobs.md R101) -/

@[simp] theorem cobsClose_length (blk : List Byte) : (cobsClose blk).length = blk.length + 1 := rfl

/-- A code byte takes the place of each delimiter and of the end; only a full block costs one more, and it takes 254 bytes. -/
theorem cobsEncFrom_length_bounds (input : List Byte) {blk : List Byte} (hd : Config.delim ∉ blk) (hlen : blk.length ≤ 253) :
    blk.length + input.length + 1 ≤ (cobsEncFrom input blk).length ∧
      (cobsEncFrom input blk).length ≤ blk.length + input.length + 1 + (blk.length + input.length) / 254 := by
  induction input generalizing blk with
  | nil => simp [cobsEncFrom]
  | cons b bs ih =>
    have hrest := ih (blk := []) List.not_mem_nil (Nat.zero_le _)
    simp only [List.length_nil] at hrest
    rcases cobsEncFrom_cons_cases b bs hd hlen with ⟨_, e⟩ | ⟨_, hl, e⟩ | ⟨hdb, hl, e⟩ <;> rw [e]
    · simp only [List.length_append, cobsClose_length, List.length_cons]
      omega
    · simp only [List.length_append, cobsClose_length, List.length_cons, List.length_nil] at hl ⊢
      omega
    · simpa [Nat.add_assoc, Nat.add_comm 1] using ih hdb hl

/-- With no delimiter in the input every closed block but the last is full. -/
theorem cobsEncFrom_length_of_delim_notMem {input blk : List Byte} (hi : Config.delim ∉ input) (hd : Config.delim ∉ blk)
    (hlen : blk.length ≤ 253) :
    (cobsEncFrom input blk).length = blk.length + input.length + 1 + (blk.length + input.length) / 254 := by
  induction input generalizing blk with
  | nil => simp [cobsEncFrom]; omega
  | cons b bs ih =>
    obtain ⟨hb, hbs⟩ := List.ne_and_not_mem_of_not_mem_cons hi
    rcases cobsEncFrom_cons_cases b bs hd hlen with ⟨e, _⟩ | ⟨_, hl, e⟩ | ⟨hdb, hl, e⟩
    · exact absurd e.symm hb
    · have hrest := ih (blk := []) hbs List.not_mem_nil (Nat.zero_le _)
      rw [e, List.length_append, cobsClose_length, hl, hrest]
      simp only [List.length_append, List.length_cons, List.length_nil] at hl ⊢
      omega
    · rw [e, ih hbs hdb hl]
      simp [Nat.add_assoc, Nat.add_comm 1]

/-- Settles O9: up to 253 bytes the two bounds meet. -/
theorem cobsEncodedLength : Obligations.CobsEncodedLength := by
  intro s bs hc
  obtain ⟨lower, upper⟩ : bs.length + 1 ≤ (cobsEnc bs).length ∧ (cobsEnc bs).length ≤ bs.length + 1 + bs.length / 254 := by
    simpa [cobsEnc] using cobsEncFrom_length_bounds bs List.not_mem_nil (Nat.zero_le 253)
  refine ⟨cobsEnc bs, exec_cobsEnc hc bs, lower, upper, fun short => by omega, fun no_zero => ?_⟩
  have no_delim : Config.delim ∉ bs := fun h => no_zero _ h rfl
  simpa [cobsEnc] using cobsEncFrom_length_of_delim_notMem no_delim List.not_mem_nil (Nat.zero_le 253)

/-! ## The decoder on any input (40_cobs.md R103, R105) -/

/-- The first code byte is written nowhere: no zero is owed before it. -/
theorem cobsDec_length_le_pred (input : List Byte) : (cobsDec input).length ≤ input.length - 1 := by
  cases input with
  | nil => simp [cobsDec, cobsDecFrom]
  | cons c rest =>
    rw [cobsDec, cobsDecFrom]
    split
    · exact Nat.zero_le _
    · exact cobsDecFrom_length_le rest c (c.toNat - 1)

/-- Settles O10. -/
theorem cobsDecodesAnyInput : Obligations.CobsDecodesAnyInput := by
  intro s input hc
  refine ⟨cobsDec input, exec_cobsDec hc input, cobsDec_length_le_pred input, ?_⟩
  rintro before after rfl
  have same_output : cobsDec (before ++ 0x00#8 :: after) = cobsDec before := cobsDec_append_delim before after
  rw [exec_cobsDec hc, exec_cobsDec hc, same_output]

/-! ## The decoder run one code byte at a time (30_encoding.md R84; log 22) -/

/-- Inside a block of `k` bytes the decoder's loop either stops with the bytes `cobsBlock` copied, or goes on behind the block, at the
next code byte. -/
theorem cobsBlock_cases (k : Nat) (input : List Byte) (code : Byte) :
    (∃ data, cobsBlock k input = (data, [], true) ∧ cobsDecFrom input code k = data) ∨
    (∃ data rest, cobsBlock k input = (data, rest, false) ∧ rest.length ≤ input.length ∧
      cobsDecFrom input code k = data ++ cobsDecFrom rest code 0) := by
  induction input generalizing k with
  | nil =>
    cases k with
    | zero => exact .inr ⟨[], [], rfl, le_rfl, rfl⟩
    | succ k => exact .inl ⟨[], rfl, rfl⟩
  | cons b bs ih =>
    cases k with
    | zero => exact .inr ⟨[], b :: bs, rfl, le_rfl, rfl⟩
    | succ k =>
      by_cases hb : b = Config.delim
      · exact .inl ⟨[], by simp [cobsBlock, hb], by simp [cobsDecFrom, hb]⟩
      rcases ih k with ⟨data, hblock, hdec⟩ | ⟨data, rest, hblock, hlen, hdec⟩
      · exact .inl ⟨b :: data, by simp [cobsBlock, hb, hblock], by simp [cobsDecFrom, hb, hdec]⟩
      · exact .inr ⟨b :: data, rest, by simp [cobsBlock, hb, hblock], Nat.le_succ_of_le hlen, by simp [cobsDecFrom, hb, hdec]⟩

theorem cobsCodeBlock_of_stopped {c : Byte} {s : State} {data rest : List Byte}
    (h : cobsBlock (c.toNat - 1) s.cobs.input = (data, rest, true)) :
    cobsCodeBlock c s = cobsStop (s.cobs.out ++ owedZero s.cobs.code ++ data) s := by
  rw [cobsCodeBlock, h]; rfl

theorem cobsCodeBlock_of_full {c : Byte} {s : State} {data rest : List Byte}
    (h : cobsBlock (c.toNat - 1) s.cobs.input = (data, rest, false)) :
    cobsCodeBlock c s =
      { s with cobs := { s.cobs with input := rest, out := s.cobs.out ++ owedZero s.cobs.code ++ data, code := c } } := by
  rw [cobsCodeBlock, h]; rfl

/-- What the decoder unit will have written when it stops. -/
def CobsUnit.result (u : CobsUnit) : List Byte := u.out ++ cobsDecFrom u.input u.code 0

theorem CobsUnit.result_of_nil {u : CobsUnit} (hi : u.input = []) : u.result = u.out := by
  simp [CobsUnit.result, hi, cobsDecFrom]

theorem CobsUnit.result_of_delim {u : CobsUnit} {rest : List Byte} (hi : u.input = Config.delim :: rest) : u.result = u.out := by
  simp [CobsUnit.result, hi, cobsDecFrom]

/-- At a code byte: the zero owed before it, then its block. -/
theorem CobsUnit.result_of_codeByte {u : CobsUnit} {c : Byte} {rest : List Byte} (hi : u.input = c :: rest)
    (hc : c ≠ Config.delim) : u.result = u.out ++ owedZero u.code ++ cobsDecFrom rest c (c.toNat - 1) := by
  rw [CobsUnit.result, hi, cobsDecFrom, if_neg hc, if_pos rfl, List.append_assoc]
  rfl

/-- Every byte but the delimiter runs its block. -/
theorem exec_decodeCobsCode {c : Byte} (hc : c ≠ Config.delim) (s : State) : exec (decodeCobsCode c) s = .next (cobsCodeBlock c s) := by
  refine exec_eq_cobsCodeBlock ?_ s
  by_cases hfull : c = 0xFF#8
  · subst hfull
    exact .inr ⟨rfl, rfl⟩
  · have hwf : (Instr.cobsRun c).wf = true := wf_cobsRun_iff.2 ⟨hc, hfull⟩
    exact .inl ⟨decodeCobsCode_run hwf, decodeCobsCode_run hwf ▸ hwf⟩

/-- At the end of its input an active decoder stops (log 22). -/
theorem step_of_inputEnd {s : State} (hr : s.host.resetRequest = false) (ha : s.cobs.active = true) (hi : s.cobs.input = []) :
    step s = .next (cobsStop s.cobs.out s) := by
  simp [step_eq, fetch, fetchCobsCode, decode, hr, ha, hi]

/-- A step of the active decoder answers its result, or uses up input and keeps the result. -/
theorem step_decoder_cases {s : State} (hr : s.host.resetRequest = false) (ha : s.cobs.active = true) :
    step s = .next (cobsStop s.cobs.result s) ∨
    ∃ u : CobsUnit, u.active = true ∧ u.input.length < s.cobs.input.length ∧ u.result = s.cobs.result ∧
      step s = .next { s with cobs := u } := by
  cases hi : s.cobs.input with
  | nil =>
    rw [CobsUnit.result_of_nil hi]
    exact .inl (step_of_inputEnd hr ha hi)
  | cons c rest =>
    have hstep := step_of_codeByte hr ha hi
    by_cases hc : c = Config.delim
    · subst hc
      rw [CobsUnit.result_of_delim hi]
      exact .inl hstep
    have hresult := CobsUnit.result_of_codeByte hi hc
    rw [exec_decodeCobsCode hc] at hstep
    rcases cobsBlock_cases (c.toNat - 1) rest c with ⟨data, hblock, hdec⟩ | ⟨data, left, hblock, hlen, hdec⟩
    · rw [cobsCodeBlock_of_stopped hblock] at hstep
      rw [hresult, hdec]
      exact .inl hstep
    · rw [cobsCodeBlock_of_full hblock] at hstep
      refine .inr ⟨_, ?_, Nat.lt_succ_of_le ?_, ?_, hstep⟩
      · exact ha
      · exact hlen
      · rw [hresult, hdec, ← List.append_assoc]
        rfl

/-- A run begins with its first step. -/
theorem run_core_succ {s t : State} (h : step s = .next t) (k : Nat) :
    Host.Core.run Sys2Proof.core (k + 1) s = Host.Core.run Sys2Proof.core k t := by
  have hcore : Sys2Proof.core.step s = .next t := h
  simp only [Host.Core.run, hcore]

/-- The active decoder answers its result within one step for each byte of its input and one more. -/
theorem run_decoder {n : Nat} {s : State} (hn : s.cobs.input.length ≤ n) (hr : s.host.resetRequest = false)
    (ha : s.cobs.active = true) :
    ∃ k, k ≤ n + 1 ∧ Host.Core.run Sys2Proof.core k s = .next (cobsStop s.cobs.result s) := by
  induction n generalizing s with
  | zero =>
    rcases step_decoder_cases hr ha with hstep | ⟨_, _, hless, _⟩
    · exact ⟨1, le_rfl, run_core_succ hstep 0⟩
    · omega
  | succ n ih =>
    rcases step_decoder_cases hr ha with hstep | ⟨u, hactive, hless, hresult, hstep⟩
    · exact ⟨1, by omega, run_core_succ hstep 0⟩
    · have hleft : u.input.length ≤ n := by omega
      obtain ⟨k, hk, hrun⟩ := ih (s := { s with cobs := u }) hleft hr hactive
      refine ⟨k + 1, by omega, ?_⟩
      rw [run_core_succ hstep, hrun, hresult]
      rfl

/-- Settles O12: a decoder placed before its first code byte has all of `COBS_DEC` for its result. -/
theorem blocksDecodeTheInput : Obligations.BlocksDecodeTheInput := by
  intro s input hr hcobs
  have hinput : s.cobs.input = input := by rw [hcobs]
  have hresult : s.cobs.result = cobsDec input := by rw [hcobs]; rfl
  obtain ⟨k, hk, hrun⟩ := run_decoder (congrArg List.length hinput).le hr (by rw [hcobs])
  rw [hresult] at hrun
  exact ⟨k, hk, hrun⟩

end Sys2Proof.Machine
end

section
/-! The CRC unit (41_crc.md R120 to R124). The bit-serial register is linear over xor, and while it shifts eight times its low byte only
moves up; so what the polynomial adds depends on the high byte alone, and a table with an entry per high byte gives the whole step. -/

namespace Sys2Proof.Machine

/-! ## What the two operations answer -/

theorem exec_crcStep (crc : U16) (b : Byte) (s : State) :
    exec (.crcStep crc b) s = .next (respond s (.u16 (crcStep crc b))) := rfl

theorem exec_crc16 {s : State} (hc : s.cfg.configured = true) (bs : List Byte) :
    exec (.crc16 bs) s = .next (respond s (.u16 (crc16 bs))) :=
  if_pos hc

/-! ## The bit-serial register (41_crc.md R122) -/

/-- What a shift xors in, by the bit shifted out. -/
def crcFeedback (out : Bool) : U16 := if out then Config.crcPoly else 0#16

@[simp] theorem crcFeedback_false : crcFeedback false = 0#16 := rfl

theorem crcFeedback_xor (p q : Bool) : crcFeedback (p ^^ q) = crcFeedback p ^^^ crcFeedback q := by
  cases p <;> cases q <;> rfl

theorem crcShift_eq (x : U16) : crcShift x = (x <<< 1) ^^^ crcFeedback (x.getLsbD 15) := by
  unfold crcShift
  cases x.getLsbD 15
  case false => exact BitVec.xor_zero.symm
  case true => rfl

theorem crcShift_xor (x y : U16) : crcShift (x ^^^ y) = crcShift x ^^^ crcShift y := by
  simp only [crcShift_eq, BitVec.getLsbD_xor, BitVec.shiftLeft_xor_distrib, crcFeedback_xor]
  ac_rfl

theorem repeat_crcShift_xor (n : Nat) (x y : U16) :
    Nat.repeat crcShift n (x ^^^ y) = Nat.repeat crcShift n x ^^^ Nat.repeat crcShift n y := by
  induction n with
  | zero => rfl
  | succ n ih => simp only [Nat.repeat, ih, crcShift_xor]

/-- While no 1 is shifted out the polynomial does not come in. -/
theorem repeat_crcShift_of_topClear (n : Nat) {x : U16} (h : ∀ i, 16 - n ≤ i → x.getLsbD i = false) :
    Nat.repeat crcShift n x = x <<< n := by
  induction n with
  | zero => exact (BitVec.shiftLeft_zero x).symm
  | succ n ih =>
    have shifted : Nat.repeat crcShift n x = x <<< n := ih fun i hi => h i (by omega)
    have topClear : (x <<< n).getLsbD 15 = false := by
      rw [BitVec.getLsbD_shiftLeft, h (15 - n) (by omega), Bool.and_false]
    rw [Nat.repeat, shifted, crcShift_eq, topClear, crcFeedback_false, BitVec.xor_zero, BitVec.shiftLeft_add]

/-! ## A register as its two bytes -/

theorem append_shiftLeft_byte (hi lo : Byte) : (hi ++ lo : U16) <<< 8 = lo ++ 0#8 := by
  rw [BitVec.shiftLeft_eq_concat_of_lt (by decide), BitVec.extractLsb'_append_eq_right]
  rfl

theorem zeroExtend_shiftLeft_byte (b : Byte) : b.zeroExtend 16 <<< 8 = (b ++ 0#8 : U16) := by
  rw [BitVec.zeroExtend, BitVec.setWidth_eq_append (by decide)]
  exact append_shiftLeft_byte 0#8 b

@[simp] theorem crcIndex_append (hi lo b : Byte) : crcIndex (hi ++ lo) b = hi ^^^ b := by
  rw [crcIndex, BitVec.setWidth_ushiftRight_eq_extractLsb, BitVec.extractLsb'_append_eq_left]

/-- The byte taken in meets the high byte of the register. -/
theorem crcStepBitwise_append (hi lo b : Byte) :
    crcStepBitwise (hi ++ lo) b = Nat.repeat crcShift 8 ((hi ^^^ b) ++ lo) := by
  rw [crcStepBitwise, zeroExtend_shiftLeft_byte, BitVec.xor_append, BitVec.xor_zero]

/-- The low byte only moves up. -/
theorem repeat_crcShift_low (lo : Byte) : Nat.repeat crcShift 8 (0#8 ++ lo) = lo ++ 0#8 := by
  rw [← append_shiftLeft_byte 0#8 lo]
  refine repeat_crcShift_of_topClear 8 fun i hi => ?_
  rw [BitVec.getLsbD_append, if_neg (by omega), BitVec.getLsbD_zero]

/-- The table holds the bit-serial answer for each high byte (41_crc.md R123). -/
theorem repeat_crcShift_high (i : Byte) : Nat.repeat crcShift 8 (i ++ 0#8) = crcTableAt i := by
  have entry : crcTableAt i = crcStepBitwise (0#8 ++ 0#8) i := crcTableAt_eq_bitwise i
  rw [entry, crcStepBitwise_append, BitVec.zero_xor]

/-! ## One byte (41_crc.md R121) and a block of bytes (41_crc.md R124) -/

theorem crcStep_append (hi lo b : Byte) : crcStep (hi ++ lo) b = crcTableAt (hi ^^^ b) ^^^ (lo ++ 0#8) := by
  rw [crcStep, crcIndex_append, append_shiftLeft_byte]

theorem crcStep_eq_bitwise (crc : U16) (b : Byte) : crcStep crc b = crcStepBitwise crc b := by
  obtain ⟨hi, lo, rfl⟩ : ∃ hi lo : Byte, crc = hi ++ lo := ⟨crcHi crc, crcLo crc, (crcHi_append_crcLo crc).symm⟩
  calc crcStep (hi ++ lo) b
      = crcTableAt (hi ^^^ b) ^^^ (lo ++ 0#8) := crcStep_append hi lo b
    _ = Nat.repeat crcShift 8 (((hi ^^^ b) ++ 0#8) ^^^ (0#8 ++ lo)) := by
        rw [repeat_crcShift_xor, repeat_crcShift_high, repeat_crcShift_low]
    _ = Nat.repeat crcShift 8 ((hi ^^^ b) ++ lo) := by rw [BitVec.xor_append, BitVec.xor_zero, BitVec.zero_xor]
    _ = crcStepBitwise (hi ++ lo) b := (crcStepBitwise_append hi lo b).symm

/-- Settles O13. -/
theorem crcStepIsBitSerial : Obligations.CrcStepIsBitSerial := by
  intro s crc b
  refine ⟨crcStep_eq_bitwise crc b, ?_⟩
  rw [exec_crcStep, crcStep_eq_bitwise]
  rfl

theorem crc16_eq_foldl_bitwise (bs : List Byte) : crc16 bs = bs.foldl crcStepBitwise 0xFFFF#16 :=
  List.foldl_ext _ _ _ fun crc b _ => crcStep_eq_bitwise crc b

/-- Settles O14. -/
theorem crcOfBlockIsBitSerial : Obligations.CrcOfBlockIsBitSerial := by
  intro s bs hc
  rw [exec_crc16 hc, crc16_eq_foldl_bitwise]
  rfl

end Sys2Proof.Machine
end

section
/-! The clock extender (42_clock.md R141 to R148): what one sample does to the registers, which operations sample, and which times the
timestamp registers can take. -/

namespace Sys2Proof.Machine

/-! ## One sample (42_clock.md R141 to R145) -/

theorem exec_clkSample {s : State} (hc : s.cfg.configured = true) :
    exec .clkSample s = .next (respond (clkSample s).2 (.time (clkSample s).1)) := if_pos hc

/-- Settles O15. -/
theorem clockSampleExtends : Obligations.ClockSampleExtends := by
  intro s hc
  refine ⟨(clkSample s).1, ?_, composeTime_toNat _ _⟩
  rw [exec_clkSample hc, clkSample_eq]
  rfl

/-- The elapsed time is taken modulo 2^32, and a fallen reading is one wrap of the counter (42_clock.md R143, R144). -/
theorem clkTime_clkAdvance_toNat {c : ClockRegs} (ho : c.overflows ≠ 0xFFFFFFFF#32) (cur : U32) :
    (clkTime (clkAdvance c cur)).toNat = (clkTime c).toNat + (cur - c.last).toNat := by
  simp only [clkTime, clkAdvance, composeTime_toNat]
  split
  case isTrue fell =>
    have elapsed : (cur - c.last).toNat + c.last.toNat = 2 ^ 32 + cur.toNat := by bv_omega
    have counted : (c.overflows + 1).toNat = c.overflows.toNat + 1 := by bv_omega
    omega
  case isFalse rose =>
    have elapsed : (cur - c.last).toNat + c.last.toNat = cur.toNat := by bv_omega
    omega

/-- Settles O16. -/
theorem clockAdvancesByElapsedTime : Obligations.ClockAdvancesByElapsedTime := fun s hc ho =>
  ⟨_, (clkSample s).1, exec_clkSample hc, rfl, clkTime_clkAdvance_toNat ho (readMicros s).1⟩

theorem clkTime_le_clkAdvance {c : ClockRegs} (ho : c.overflows ≠ 0xFFFFFFFF#32) (cur : U32) :
    clkTime c ≤ clkTime (clkAdvance c cur) := by
  rw [BitVec.le_def, clkTime_clkAdvance_toNat ho]
  exact Nat.le_add_right _ _

/-! ## Work at a given time -/

/-- No timestamp register is after `bound`. -/
def StampsUpTo (bound : Time) (s : State) : Prop :=
  s.outb.lastTxTime ≤ bound ∧ s.outb.lastTxOut ≤ bound ∧ s.outb.txStartTime ≤ bound ∧ s.inb.lastRx ≤ bound

theorem timestampsPast_iff (s : State) : TimestampsPast s ↔ StampsUpTo (clkTime s.clk) s := Iff.rfl

/-- From `s` to `t` the extender stands still, and a timestamp register that is written takes nothing later than `now` (42_clock.md
R146, R148). -/
structure WorksAt (now : Time) (s t : State) : Prop where
  clk : t.clk = s.clk
  stamps : ∀ bound, now ≤ bound → StampsUpTo bound s → StampsUpTo bound t

variable {now : Time} {s t u : State}

theorem WorksAt.refl (now : Time) (s : State) : WorksAt now s s := ⟨rfl, fun _ _ past => past⟩

theorem WorksAt.trans (h : WorksAt now s t) (h' : WorksAt now t u) : WorksAt now s u :=
  ⟨h'.clk.trans h.clk, fun bound hb past => h'.stamps bound hb (h.stamps bound hb past)⟩

theorem WorksAt.respond (h : WorksAt now s t) (r : Response) : WorksAt now s (Machine.respond t r) := ⟨h.clk, h.stamps⟩

/-- An operation that writes neither half's registers nor the extender works at any time. -/
theorem worksAt_of_kept (houtb : t.outb = s.outb) (hinb : t.inb = s.inb) (hclk : t.clk = s.clk) : WorksAt now s t :=
  ⟨hclk, fun _ _ past => by rwa [StampsUpTo, houtb, hinb]⟩

/-! ### The receive path -/

theorem goodFrame_worksAt (now : Time) (s : State) : WorksAt now s (goodFrame now s) :=
  ⟨rfl, fun _ hb ⟨txTime, txOut, txStart, _⟩ => ⟨txTime, txOut, txStart, hb⟩⟩

/-- "Reset outbound state" puts `last_tx_time` to 0, which is ahead of no clock. -/
theorem resetOutbound_worksAt (now : Time) (s : State) : WorksAt now s (resetOutbound s) :=
  ⟨rfl, fun _ _ ⟨_, txOut, txStart, rx⟩ => ⟨Nat.zero_le _, txOut, txStart, rx⟩⟩

theorem messageAcknowledged_worksAt (now : Time) (s : State) : WorksAt now s (messageAcknowledged now s) :=
  ⟨rfl, (resetOutbound_worksAt now s).stamps⟩

theorem ackHandling_worksAt (a : Byte) (now : Time) (s : State) : WorksAt now s (ackHandling a now s) := by
  rcases ackHandling_cases a now s with ⟨_, _, e⟩ | ⟨_, e⟩ <;> rw [e]
  · exact messageAcknowledged_worksAt now s
  · exact WorksAt.refl now s

theorem dataHandling_worksAt {q : Byte} {d : List Byte} (now : Time) (hd : d.length ≤ Config.maxPayload)
    (h : dataHandling q d s = .ok t) : WorksAt now s t := by
  rcases dataHandling_cases q s hd with ⟨_, _, e⟩ | ⟨_, _, e⟩ | ⟨_, e⟩ <;> cases e.symm.trans h <;>
    exact ⟨rfl, fun _ _ past => past⟩

theorem receivePayload_worksAt {d : List Byte} (h : receivePayload d now s = .ok t) : WorksAt now s t := by
  have good : WorksAt now s (ackHandling (payloadAck d) now (goodFrame now s)) :=
    (goodFrame_worksAt now s).trans (ackHandling_worksAt _ now _)
  rcases receivePayload_cases d now s with ⟨_, e⟩ | ⟨_, _, _, e⟩ | ⟨_, _, e⟩ | ⟨_, hd, _, e⟩
  · cases e.symm.trans h; exact worksAt_of_kept rfl rfl rfl
  · cases e.symm.trans h; exact worksAt_of_kept rfl rfl rfl
  · cases e.symm.trans h; exact good
  · exact good.trans (dataHandling_worksAt now hd (e.symm.trans h))

theorem rxFrame_worksAt {n : Nat} (h : rxFrame n now s = .ok t) : WorksAt now s t := by
  obtain ⟨_, _, hpayload⟩ := rxFrame_eq_ok h
  exact WorksAt.trans (by exact worksAt_of_kept rfl rfl rfl) (receivePayload_worksAt hpayload)

theorem rxByte_worksAt {b : Byte} (h : rxByte b now s = .ok t) : WorksAt now s t := by
  obtain ⟨_, rfl, ⟨_, e⟩ | ⟨_, _, e⟩ | ⟨_, _, e⟩⟩ := rxByte_cases (b := b) (now := now) (rxWp_lt_of_rxByte_ok h)
  · exact WorksAt.trans (by exact worksAt_of_kept rfl rfl rfl) (rxFrame_worksAt (e.symm.trans h))
  · cases e.symm.trans h; exact worksAt_of_kept rfl rfl rfl
  · cases e.symm.trans h; exact worksAt_of_kept rfl rfl rfl

theorem rxDrain_worksAt (h : rxDrain now s = .ok t) : WorksAt now s t :=
  drainLoop_induction (P := WorksAt now s) (fun _ _ hu => hu.trans (worksAt_of_kept rfl rfl rfl))
    (fun _ _ _ hu hbyte => hu.trans (rxByte_worksAt hbyte)) (WorksAt.refl now s) h

/-! ### The transmit path -/

theorem loadFrame_worksAt {msg : List Byte} (now : Time) (h : loadFrame msg s = .ok t) : WorksAt now s t := by
  obtain ⟨_, _, _, rfl⟩ := loadFrame_eq_ok h
  exact worksAt_of_kept rfl rfl rfl

theorem frameLoaded_worksAt (now : Time) (s : State) : WorksAt now s (frameLoaded now s) :=
  ⟨rfl, fun _ hb ⟨txTime, _, txStart, rx⟩ => ⟨txTime, hb, txStart, rx⟩⟩

theorem armRetry_worksAt (now : Time) (s : State) : WorksAt now s (armRetry s) := ⟨rfl, fun _ _ past => past⟩

theorem loadDataFrame_worksAt (h : loadDataFrame now s = .ok t) : WorksAt now s t := by
  obtain ⟨u, hload, rfl⟩ := loadDataFrame_eq_ok h
  have stamped : WorksAt now s { s with outb := { s.outb with lastTxTime := now } } :=
    ⟨rfl, fun _ hb ⟨_, txOut, txStart, rx⟩ => ⟨hb, txOut, txStart, rx⟩⟩
  exact stamped.trans <| (loadFrame_worksAt now hload).trans <| (frameLoaded_worksAt now u).trans (armRetry_worksAt now _)

theorem branchRetransmit_worksAt (h : branchRetransmit now s = .ok t) : WorksAt now s t := by
  obtain ⟨u, rfl, rfl | ⟨_, hload⟩⟩ := branchRetransmit_eq_ok h
  · exact WorksAt.trans (by exact ⟨rfl, fun _ _ past => past⟩) (resetOutbound_worksAt now _)
  · exact WorksAt.trans (by exact ⟨rfl, fun _ _ past => past⟩) (loadDataFrame_worksAt hload)

theorem branchAck_worksAt (h : branchAck now s = .ok t) : WorksAt now s t := by
  obtain ⟨u, hload, rfl⟩ := branchAck_eq_ok h
  exact (loadFrame_worksAt now hload).trans (frameLoaded_worksAt now u)

theorem txSelectWhenEmpty_worksAt (h : txSelectWhenEmpty now s = .ok t) : WorksAt now s t := by
  unfold txSelectWhenEmpty at h
  split at h
  case isFalse => cases h; exact WorksAt.refl now s
  case isTrue =>
    rcases txSelect_cases now s with ⟨_, e⟩ | ⟨_, _, _, e⟩ | ⟨_, _, _, e⟩ | ⟨_, _, _, _, e⟩ | ⟨_, _, _, _, e⟩ <;> rw [e] at h
    · exact loadDataFrame_worksAt h
    · exact branchRetransmit_worksAt h
    · exact branchAck_worksAt h
    · exact branchAck_worksAt h
    · cases h; exact WorksAt.refl now s

theorem txPush_worksAt (now : Time) (h : txPush s = .ok t) : WorksAt now s t := by
  obtain rfl | ⟨_, k, env, _, rfl⟩ := txPush_eq_ok h
  · exact WorksAt.refl now _
  · exact worksAt_of_kept (advanceTx_outb _ _) (advanceTx_inb _ _) (advanceTx_clk _ _)

/-! ### The operations that sample, after their sample (42_clock.md R148) -/

theorem tickPhases_worksAt (h : tickPhases s = .ok t) : WorksAt (clkSample s).1 (clkSample s).2 t := by
  obtain ⟨u, v, hdrain, hselect, hpush⟩ := tickPhases_eq_ok h
  exact (rxDrain_worksAt hdrain).trans <| (txSelectWhenEmpty_worksAt hselect).trans (txPush_worksAt _ hpush)

/-- A rejected `SEND` changes nothing; an accepted one starts its message's time at its sample. -/
theorem sendMessage_time {buf : List Byte} (h : sendMessage buf s = .ok t) :
    (s.outb.outgoingLen ≠ 0 ∧ t = s) ∨ (s.outb.outgoingLen = 0 ∧ WorksAt (clkSample s).1 (clkSample s).2 t) := by
  rcases sendMessage_cases buf s with ⟨hbusy, e⟩ | ⟨hidle, u, e, hu⟩ <;> cases e.symm.trans h
  · exact .inl ⟨hbusy, rfl⟩
  · refine .inr ⟨hidle, ?_⟩
    rw [hu, clkSample_eq]
    exact ⟨rfl, fun _ hb ⟨txTime, txOut, _, rx⟩ => ⟨txTime, txOut, hb, rx⟩⟩

theorem exec_read_worksAt {max : Nat} (now : Time) (h : exec (.read max) s = .next t) : WorksAt now s t := by
  rcases readMessage_cases max s with ⟨_, e⟩ | ⟨_, e⟩ <;> cases e.symm.trans (exec_read_eq_next h) <;>
    exact ⟨rfl, fun _ _ past => past⟩

theorem exec_begin_worksAt {baud : Nat} (now : Time) (h : exec (.begin baud) s = .next t) : WorksAt now s t := by
  obtain ⟨_, _, rfl⟩ := exec_begin_eq_next h
  exact worksAt_of_kept rfl rfl rfl

/-! ## Who writes the extender (42_clock.md R148, 10_state.md R36) -/

theorem cobsCodeBlock_clk (c : Byte) (s : State) : (cobsCodeBlock c s).clk = s.clk := by
  unfold cobsCodeBlock
  split
  split <;> rfl

/-- Of the queries, `IS_OPEN` and `CLK_SAMPLE` take one sample each and the others none. -/
theorem exec_query_clk {i : Instr} (hi : isQuery i = true) (h : exec i s = .next t) :
    t.clk = s.clk ∨ ((i = .isOpen ∨ i = .clkSample) ∧ ∃ cur, t.clk = clkAdvance s.clk cur) := by
  have asks : ∀ {r}, whenConfigured s (.next (respond s r)) = .next t → t.clk = s.clk := fun hr => by
    cases (whenConfigured_eq_next.1 hr).2; rfl
  have samples : ∀ {r}, whenConfigured s (.next (respond (clkSample s).2 r)) = .next t → ∃ cur, t.clk = clkAdvance s.clk cur :=
    fun hr => by cases (whenConfigured_eq_next.1 hr).2; exact ⟨_, rfl⟩
  cases i with
  | isOpen => exact .inr ⟨.inl rfl, samples h⟩
  | clkSample => exact .inr ⟨.inr rfl, samples h⟩
  | clearToSend | clearToRead | stats | crc16 | cobsEnc | cobsDec | backoff => exact .inl (asks h)
  | avgRetryCount | crcStep | cobsDelim => cases h; exact .inl rfl
  | cobsRun c => cases (whenInForm_eq_next.1 h).2; exact .inl (cobsCodeBlock_clk c s)
  | cobsFull => cases h; exact .inl (cobsCodeBlock_clk _ s)
  | _ => exact absurd hi Bool.false_ne_true

theorem exec_query_clk_kept {i : Instr} (hi : isQuery i = true) (hopen : i ≠ .isOpen) (hsample : i ≠ .clkSample)
    (h : exec i s = .next t) : t.clk = s.clk :=
  (exec_query_clk hi h).resolve_right fun ⟨hsampler, _⟩ => hsampler.elim hopen hsample

/-- Settles O57. -/
theorem onlySamplingWritesClock : Obligations.OnlySamplingWritesClock := by
  intro i s t h htick hopen hsample hreset hsend
  have received : ∀ {d}, receiveNow d s = .next t → t.clk = s.clk := fun hr => (receivePayload_worksAt (finish_eq_next.1 hr)).clk
  cases i with
  | tick => exact absurd rfl htick
  | reset => exact absurd rfl hreset
  | begin baud => exact (exec_begin_worksAt 0 h).clk
  | send buf =>
    obtain ⟨u, hu, rfl⟩ := exec_send_eq_next h
    obtain ⟨_, rfl⟩ | ⟨hidle, _⟩ := sendMessage_time hu
    · rfl
    · exact absurd hidle (hsend buf rfl)
  | read max => exact (exec_read_worksAt 0 h).clk
  | rxDrain now => exact (rxDrain_worksAt (finish_eq_next.1 h)).clk
  | rxByte b now => exact (rxByte_worksAt (finish_eq_next.1 h)).clk
  | rxFrame n now => exact (rxFrame_worksAt (finish_eq_next.1 (whenInForm_eq_next.1 h).2)).clk
  | ackHandling a now => cases h; exact (ackHandling_worksAt a now s).clk
  | ewmaUpdate now => cases h; rfl
  | dataHandling q d now =>
    obtain ⟨hform, hdata⟩ := whenInForm_eq_next.1 h
    exact (dataHandling_worksAt now (wf_dataHandling_iff.1 hform).2 (finish_eq_next.1 hdata)).clk
  | txSelect now => exact (txSelectWhenEmpty_worksAt (finish_eq_next.1 h)).clk
  | loadFrame msg =>
    obtain ⟨_, hload⟩ := whenInForm_eq_next.1 h
    split at hload
    case isTrue => exact (loadFrame_worksAt 0 (finish_eq_next.1 hload)).clk
    case isFalse => cases hload
  | txPush => exact (txPush_worksAt 0 (finish_eq_next.1 h)).clk
  | frameAckOnly a o c => exact received h
  | frameShort | frameData | frameLong => exact received (whenInForm_eq_next.1 h).2
  | _ => exact exec_query_clk_kept rfl hopen hsample h

/-! ## A step samples at most once and then works at the time of the extender -/

/-- `t` has the registers of `s`, but for at most one sample in the extender. -/
structure SampledOnce (s t : State) : Prop where
  ports : OnlyPortsChange s t
  clk : t.clk = s.clk ∨ ∃ cur, t.clk = clkAdvance s.clk cur

theorem sampledOnce_refl (s : State) : SampledOnce s s := ⟨rfl, .inl rfl⟩

theorem sampledOnce_clkSample (s : State) : SampledOnce s (clkSample s).2 := ⟨onlyPortsChange_clkSample s, .inr ⟨_, rfl⟩⟩

theorem SampledOnce.clkTime_le (h : SampledOnce s t) (ho : s.clk.overflows ≠ 0xFFFFFFFF#32) : clkTime s.clk ≤ clkTime t.clk := by
  obtain e | ⟨cur, e⟩ := h.clk <;> rw [e]
  · exact BitVec.le_refl _
  · exact clkTime_le_clkAdvance ho cur

/-- The clock moves on and the timestamps stay where they are. -/
theorem SampledOnce.timestampsPast (h : SampledOnce s t) (ho : s.clk.overflows ≠ 0xFFFFFFFF#32) (past : TimestampsPast s) :
    TimestampsPast t := by
  have later : ∀ {x}, x ≤ clkTime s.clk → x ≤ clkTime t.clk := fun hx => BitVec.le_trans hx (h.clkTime_le ho)
  obtain ⟨txTime, txOut, txStart, rx⟩ := past
  rw [timestampsPast_iff, StampsUpTo, h.ports]
  exact ⟨later txTime, later txOut, later txStart, later rx⟩

/-- What an operation or a step does with time: at most one sample, then work at the time the extender holds. -/
def TimeMovesOn (s t : State) : Prop := ∃ u, SampledOnce s u ∧ WorksAt (clkTime u.clk) u t

theorem TimeMovesOn.clkTime_le (h : TimeMovesOn s t) (ho : s.clk.overflows ≠ 0xFFFFFFFF#32) : clkTime s.clk ≤ clkTime t.clk := by
  obtain ⟨u, sampled, work⟩ := h
  rw [work.clk]
  exact sampled.clkTime_le ho

theorem TimeMovesOn.timestampsPast (h : TimeMovesOn s t) (ho : s.clk.overflows ≠ 0xFFFFFFFF#32) (past : TimestampsPast s) :
    TimestampsPast t := by
  obtain ⟨u, sampled, work⟩ := h
  rw [timestampsPast_iff, work.clk]
  exact work.stamps _ (BitVec.le_refl _) (sampled.timestampsPast ho past)

theorem timeMovesOn_of_exec {i : Instr} (hi : IsFetchable i) (h : exec i s = .next t) : TimeMovesOn s t := by
  cases hi with
  | begin baud => exact ⟨s, sampledOnce_refl s, exec_begin_worksAt _ h⟩
  | tick =>
    obtain ⟨_, u, hu, rfl⟩ := exec_tick_eq_next h
    exact ⟨_, sampledOnce_clkSample s, (tickPhases_worksAt hu).respond _⟩
  | send buf =>
    obtain ⟨u, hu, rfl⟩ := exec_send_eq_next h
    obtain ⟨_, rfl⟩ | ⟨_, work⟩ := sendMessage_time hu
    · exact ⟨u, sampledOnce_refl u, (WorksAt.refl _ u).respond _⟩
    · exact ⟨_, sampledOnce_clkSample s, work.respond _⟩
  | read max => exact ⟨s, sampledOnce_refl s, exec_read_worksAt _ h⟩
  | query hq => exact ⟨t, ⟨exec_query_onlyPortsChange hq h, (exec_query_clk hq h).imp_right And.right⟩, WorksAt.refl _ t⟩

/-- Fetching changes the host's side and the decoder unit only, so before the fetched operation no time has passed. -/
theorem TimeMovesOn.of_fetched {host : HostPort} {cobs : CobsUnit} (h : TimeMovesOn { s with host := host, cobs := cobs } t) :
    TimeMovesOn s t := by
  obtain ⟨u, ⟨ports, clk⟩, work⟩ := h
  exact ⟨u, ⟨ports, clk⟩, work⟩

theorem timeMovesOn_of_step (hr : s.host.resetRequest = false) (h : step s = .next t) : TimeMovesOn s t := by
  have waited : ∀ host cobs, TimeMovesOn s { s with host := host, cobs := cobs } := fun _ _ =>
    ⟨s, sampledOnce_refl s, worksAt_of_kept rfl rfl rfl⟩
  rw [step_eq] at h
  rcases fetch_cases s with ⟨hreset, _⟩ | ⟨_, _, _, e⟩ | ⟨b, _, _, _, _, e⟩ | ⟨_, _, _, e⟩ | ⟨_, _, _, _, _, _, hd, e⟩ |
    ⟨_, _, _, _, _, _, _, e⟩
  · cases hreset.symm.trans hr
  all_goals rw [e] at h
  · cases h; exact waited _ _
  · exact TimeMovesOn.of_fetched (timeMovesOn_of_exec (isFetchable_decodeCobsCode b) h)
  · cases h; exact waited _ _
  · exact TimeMovesOn.of_fetched (timeMovesOn_of_exec (isFetchable_of_decodeCommand hd) h)
  · cases h

/-- Settles O17. -/
theorem clockNeverRunsBack : Obligations.ClockNeverRunsBack := fun _ _ ho hr h => (timeMovesOn_of_step hr h).clkTime_le ho

theorem timestampsPast_resetWith (p : Config.Params) : TimestampsPast (State.resetWith p) :=
  ⟨Nat.zero_le _, Nat.zero_le _, Nat.zero_le _, Nat.zero_le _⟩

/-- Settles O18: a requested reset puts every timestamp back to 0, and any other step moves time on. -/
theorem timestampsStayPast : Obligations.TimestampsStayPast := by
  refine ⟨timestampsPast_resetWith _, fun s t ho past h => ?_⟩
  cases hr : s.host.resetRequest with
  | true =>
    rw [step_of_resetRequest hr] at h
    cases h
    exact timestampsPast_resetWith s.params
  | false => exact (timeMovesOn_of_step hr h).timestampsPast ho past

end Sys2Proof.Machine
end

section
/-! The host operations (43_link_host.md R160 to R166, R172, R173): `BEGIN` and the configuration it derives, what `SEND` and `READ` do to
the two stashes, and what the queries answer. -/

namespace Sys2Proof.Machine

/-! ## The first line of a coded operation (43_link_host.md R161) -/

theorem whenConfigured_of_configured {s : State} (hc : s.cfg.configured = true) (r : Host.Outcome State Fault Refusal) :
    whenConfigured s r = r := if_pos hc

theorem whenConfigured_of_not {s : State} (hc : s.cfg.configured = false) (r : Host.Outcome State Fault Refusal) :
    whenConfigured s r = .refused .notConfigured := if_neg (Bool.eq_false_iff.1 hc)

/-! ## `BEGIN` (43_link_host.md R160) -/

theorem exec_begin_of_configured {s : State} (hc : s.cfg.configured = true) (baud : Nat) :
    exec (.begin baud) s = .refused .alreadyConfigured := if_pos hc

theorem exec_begin_of_outOfRange {s : State} (hc : s.cfg.configured = false) {baud : Nat} (hb : baudInRange baud = false) :
    exec (.begin baud) s = .refused (.baudOutOfRange baud) :=
  (if_neg (Bool.eq_false_iff.1 hc)).trans (if_neg (Bool.eq_false_iff.1 hb))

theorem exec_begin_of_inRange {s : State} (hc : s.cfg.configured = false) {baud : Nat} (hb : baudInRange baud = true) :
    exec (.begin baud) s = .next (respond (tBegin { s with cfg := configFor baud } baud) .none) :=
  (if_neg (Bool.eq_false_iff.1 hc)).trans (if_pos hb)

/-! ### The derived values as numbers (00_scope.md R7): a byte takes at most a second, so no product wraps -/

theorem configFor_usPerByte_toNat (baud : Nat) : (configFor baud).usPerByte.toNat = 1000000 / (baud / 10) := by
  have le_second : 1000000 / (baud / 10) ≤ 1000000 := Nat.div_le_self _ _
  exact Nat.mod_eq_of_lt (by omega)

theorem configFor_retryAbsMax_toNat (baud : Nat) : (configFor baud).retryAbsMax.toNat = 1000000 / (baud / 10) * 100000 := by
  have le_second : 1000000 / (baud / 10) ≤ 1000000 := Nat.div_le_self _ _
  calc (configFor baud).retryAbsMax.toNat
      = (configFor baud).usPerByte.toNat * 100000 % 2 ^ 64 := BitVec.toNat_mul _ _
    _ = 1000000 / (baud / 10) * 100000 := by rw [configFor_usPerByte_toNat]; omega

theorem configFor_keepaliveTxInterval_toNat (baud : Nat) :
    (configFor baud).keepaliveTxInterval.toNat = 1000000 / (baud / 10) * 100000 / 4 :=
  BitVec.toNat_udiv.trans (congrArg (· / 4) (configFor_retryAbsMax_toNat baud))

theorem configFor_keepaliveRxInterval_toNat (baud : Nat) :
    (configFor baud).keepaliveRxInterval.toNat = 1000000 / (baud / 10) * 100000 / 2 :=
  BitVec.toNat_udiv.trans (congrArg (· / 2) (configFor_retryAbsMax_toNat baud))

/-- Settles O19. -/
theorem beginConfiguresOnce : Obligations.BeginConfiguresOnce := by
  refine fun s baud => ⟨fun hc => exec_begin_of_configured hc baud, fun hc hout => ?_, fun hc hlo hhi => ?_⟩
  · have out : baudInRange baud = false := Bool.eq_false_iff.2 fun hb => by
      have := baudInRange_iff.1 hb
      omega
    exact exec_begin_of_outOfRange hc out
  · exact ⟨_, exec_begin_of_inRange hc (baudInRange_iff.2 ⟨hlo, hhi⟩), rfl, configFor_usPerByte_toNat baud,
      configFor_retryAbsMax_toNat baud, configFor_keepaliveTxInterval_toNat baud, configFor_keepaliveRxInterval_toNat baud, rfl⟩

/-- Settles O20: the operations with a code that are not `BEGIN` all begin with the same test. -/
theorem operationsNeedBegin : Obligations.OperationsNeedBegin := by
  refine ⟨fun s i hop not_begin hc => ?_, fun s baud hc => exec_begin_of_configured hc baud⟩
  cases i with
  | begin baud => exact absurd rfl (not_begin baud)
  | tick | send | read | isOpen | clearToSend | clearToRead | stats | crc16 | cobsEnc | cobsDec | clkSample | backoff =>
    exact whenConfigured_of_not hc _
  | _ => cases hop

/-! ## The queries that only answer (43_link_host.md R162, R164, R172, R173) -/

theorem clearToSend_eq (s : State) : clearToSend s = decide (s.outb.outgoingLen = 0) := rfl

theorem clearToRead_eq (s : State) : clearToRead s = decide (s.inb.incomingLen ≠ 0) :=
  decide_eq_decide.2 (by bv_omega)

/-- Settles O21. -/
theorem queriesWriteNothing : Obligations.QueriesWriteNothing := by
  refine fun s hc => ⟨?_, ?_, whenConfigured_of_configured hc _⟩
  · rw [← clearToSend_eq]; exact whenConfigured_of_configured hc _
  · rw [← clearToRead_eq]; exact whenConfigured_of_configured hc _

theorem avgRetryCount_of_completed (a : Config.StatArith) {r : StatRegs} (h : r.txOk + r.txFail ≠ 0) :
    avgRetryCount a r = statOp a .div (statOfNat a r.txTotalRetries) (statOfNat a (r.txOk + r.txFail)) := if_neg h

theorem avgRetryCount_exact_mul {r : StatRegs} (h : r.txOk + r.txFail ≠ 0) :
    avgRetryCount .exact r * ((r.txOk + r.txFail : Nat) : Rat) = (r.txTotalRetries : Rat) := by
  rw [avgRetryCount_of_completed .exact h, statOp_exact_div, statOfNat_exact, statOfNat_exact]
  exact div_mul_cancel₀ _ (Nat.cast_ne_zero.2 h)

/-- Settles O22. -/
theorem avgRetryCountIsQuotient : Obligations.AvgRetryCountIsQuotient := fun s =>
  ⟨avgRetryCount s.params.statReal s.stat, rfl, fun none_completed => if_pos none_completed, fun completed =>
    ⟨avgRetryCount_of_completed _ completed, fun harith => harith ▸ avgRetryCount_exact_mul completed⟩⟩

/-! ## `IS_OPEN` (43_link_host.md R166) -/

theorem exec_isOpen {s : State} (hc : s.cfg.configured = true) :
    exec .isOpen s = .next (respond (clkSample s).2 (.bit (isOpenAt (clkSample s).2 (clkSample s).1))) :=
  whenConfigured_of_configured hc _

/-- A sample writes neither of the registers that are compared. -/
theorem isOpenAt_clkSample (s : State) (now : Time) :
    isOpenAt (clkSample s).2 now = decide ((now - s.inb.lastRx).toNat ≤ s.cfg.keepaliveRxInterval.toNat) := by
  rw [isOpenAt, clkSample_inb, clkSample_cfg]
  exact decide_eq_decide.2 BitVec.le_def

/-- Settles O23. -/
theorem isOpenSamplesAndCompares : Obligations.IsOpenSamplesAndCompares := by
  intro s hc
  refine ⟨respond (clkSample s).2 (.bit (isOpenAt (clkSample s).2 (clkSample s).1)), (clkSample s).1, exec_clkSample hc,
    exec_isOpen hc, congrArg Response.bit (isOpenAt_clkSample s _), ?_⟩
  rw [clkSample_eq]
  rfl

/-! ## A sequence written from index 0 of a buffer -/

theorem getBuf_congr {s t : State} (h : t.buf = s.buf) (b : Buffer) : getBuf t b = getBuf s b := by
  cases b <;> simp only [getBuf, h]

section Written

variable {s t : State} {b : Buffer} {bs : List Byte} (h : t.buf = (setBuf s b (memWriteBytes (getBuf s b) 0 bs)).buf)
include h

theorem firstBytes_of_written (hw : (getBuf s b).wf = true) : firstBytes t b bs.length = bs := by
  rw [firstBytes, getBuf_congr h, getBuf_setBuf_same]
  exact memReadBytes_writeBytes 0 bs hw

theorem bytesKeptBut_of_written : BytesKeptBut b bs.length s t := by
  refine ⟨fun b' a hb => ?_, fun a ha => ?_⟩
  · rw [byteAt, getBuf_congr h, getBuf_setBuf_ne s _ hb]; rfl
  · rw [byteAt, getBuf_congr h, getBuf_setBuf_same]
    exact memReadByte_writeBytes_outside _ bs (.inr (by omega))

end Written

/-! ## `SEND` (43_link_host.md R163) -/

theorem sendTaken_length (buf : List Byte) : (sendTaken buf).length = min buf.length 248 := by
  rw [sendTaken, List.length_take, min_comm]; rfl

theorem exec_send_of_busy {s : State} (hc : s.cfg.configured = true) (hbusy : s.outb.outgoingLen ≠ 0) (buf : List Byte) :
    exec (.send buf) s = .next (respond s .none) := by
  obtain ⟨_, e⟩ | ⟨hidle, _⟩ := sendMessage_cases buf s
  · exact (whenConfigured_of_configured hc _).trans (by rw [e]; rfl)
  · exact absurd hidle hbusy

/-- The state an accepted `SEND` answers, before its response: one sample, the stash written from index 0, one number used. -/
def messageTaken (buf : List Byte) (s : State) : State :=
  { setBuf s .outgoing (memWriteBytes (getBuf s .outgoing) 0 (sendTaken buf)) with
    outb := { s.outb with outgoingLen := BitVec.ofNat 8 (sendTaken buf).length, ourSeq := s.outb.ourSeq + 1,
                          txStartTime := (clkSample s).1 }
    clk := clkAdvance s.clk (readMicros s).1
    env := (readMicros s).2.env }

theorem exec_send_of_idle {s : State} (hc : s.cfg.configured = true) (hidle : s.outb.outgoingLen = 0) (buf : List Byte) :
    exec (.send buf) s = .next (respond (messageTaken buf s) .none) := by
  obtain ⟨hbusy, _⟩ | ⟨_, t, e, ht⟩ := sendMessage_cases buf s
  · exact absurd hidle hbusy
  · have taken : t = messageTaken buf s := by rw [ht, clkSample_eq]; rfl
    exact (whenConfigured_of_configured hc _).trans (by rw [e, taken]; rfl)

theorem messageTaken_outgoingLen_toNat (buf : List Byte) (s : State) :
    (messageTaken buf s).outb.outgoingLen.toNat = min buf.length 248 := by
  change (BitVec.ofNat 8 (sendTaken buf).length).toNat = _
  rw [sendTaken_length, BitVec.toNat_ofNat]
  omega

/-- Settles O24. -/
theorem sendTakesMessageOrNothing : Obligations.SendTakesMessageOrNothing := by
  refine fun s buf hc => ⟨fun hbusy => exec_send_of_busy hc hbusy buf, fun hidle hw => ?_⟩
  refine ⟨_, exec_send_of_idle hc hidle buf, ?_, ?_, messageTaken_outgoingLen_toNat buf s, rfl, rfl, rfl, rfl, rfl, rfl, rfl, rfl,
    rfl, rfl⟩
  · rw [← sendTaken_length]; exact firstBytes_of_written rfl hw
  · rw [← sendTaken_length]; exact bytesKeptBut_of_written rfl

/-! ## `READ` (43_link_host.md R165) -/

theorem exec_read_of_empty {s : State} (hc : s.cfg.configured = true) (hempty : s.inb.incomingLen = 0) (max : Nat) :
    exec (.read max) s = .next (respond s (.bytesLen [] 0)) := by
  obtain ⟨_, e⟩ | ⟨hheld, _⟩ := readMessage_cases max s
  · exact (whenConfigured_of_configured hc _).trans (by rw [e]; rfl)
  · exact absurd hempty hheld

theorem exec_read_of_held {s : State} (hc : s.cfg.configured = true) (hheld : s.inb.incomingLen ≠ 0) (max : Nat) :
    exec (.read max) s = .next (respond (releaseMessage s)
      (.bytesLen (firstBytes s .incoming (readCount s.inb.incomingLen max)) (readCount s.inb.incomingLen max))) := by
  obtain ⟨hempty, _⟩ | ⟨_, e⟩ := readMessage_cases max s
  · exact absurd hempty hheld
  · exact (whenConfigured_of_configured hc _).trans (by rw [e]; rfl)

/-- Settles O25. -/
theorem readDeliversMessageOrZero : Obligations.ReadDeliversMessageOrZero := fun _ max hc =>
  ⟨fun hempty => exec_read_of_empty hc hempty max, fun hheld => ⟨_, rfl, exec_read_of_held hc hheld max⟩⟩

end Sys2Proof.Machine
end

section
/-! The receiver's action on one decoded payload (44_link_rx.md R185 to R191): the acknowledgement and its samples, the three ways of a
message, then the payload by its length, its CRC and its kind. -/

namespace Sys2Proof.Machine

/-! ## `EWMA_UPDATE` and `ACK_HANDLING` (44_link_rx.md R189, R190) -/

/-- In exact rationals a hundredth of the distance, so a hundred moves make the distance. -/
theorem ewma_exact_mul (avg : Config.StatReal) (sample : Nat) : 100 * (ewma .exact avg sample - avg) = (sample : Rat) - avg := by
  rw [ewma_exact]
  ring

/-- Settles O38. -/
theorem averagesTakeOneSample : Obligations.AveragesTakeOneSample := by
  rintro s now _ _ _ rfl rfl rfl
  refine ⟨_, _, _, rfl, rfl, rfl, rfl, fun harith => ?_⟩
  simp only [harith]
  exact ⟨ewma_exact_mul _ _, ewma_exact_mul _ _⟩

/-- No message is pending under the number `a`: the condition under which `ACK_HANDLING` does nothing (60_exceptions.md R253). -/
def AckSettled (a : Byte) (s : State) : Prop := s.outb.outgoingLen = 0 ∨ a ≠ s.outb.ourSeq

theorem ackSettled_iff (a : Byte) (s : State) : AckSettled a s ↔ ¬(0 < s.outb.outgoingLen ∧ a = s.outb.ourSeq) := by
  have idle_iff : s.outb.outgoingLen = 0 ↔ ¬0 < s.outb.outgoingLen := by bv_omega
  rw [AckSettled, idle_iff, not_and_or]

theorem ackHandling_of_acknowledged {a : Byte} {s : State} (hbusy : s.outb.outgoingLen ≠ 0) (ha : a = s.outb.ourSeq) (now : Time) :
    ackHandling a now s = messageAcknowledged now s :=
  if_pos ⟨by bv_omega, ha⟩

theorem ackHandling_of_settled {a : Byte} {s : State} (h : AckSettled a s) (now : Time) : ackHandling a now s = s :=
  if_neg ((ackSettled_iff a s).1 h)

/-- An acknowledgement is handled once: it leaves no message that it could acknowledge again. -/
theorem ackHandling_settles (a : Byte) (now : Time) (s : State) : AckSettled a (ackHandling a now s) := by
  rcases ackHandling_cases a now s with ⟨_, _, e⟩ | ⟨hnot, e⟩ <;> rw [e]
  · exact .inl rfl
  · exact (ackSettled_iff a s).2 hnot

/-- `ACK_HANDLING` writes neither the inbound half nor the clock. -/
theorem ackHandling_keeps (a : Byte) (now : Time) (s : State) :
    (ackHandling a now s).params = s.params ∧ (ackHandling a now s).inb = s.inb ∧ (ackHandling a now s).clk = s.clk := by
  rcases ackHandling_cases a now s with ⟨_, _, e⟩ | ⟨_, e⟩ <;> rw [e] <;> exact ⟨rfl, rfl, rfl⟩

/-- Settles O37. -/
theorem acknowledgementEndsMessage : Obligations.AcknowledgementEndsMessage := fun _ _ now =>
  ⟨fun hbusy ha => ⟨_, rfl, congrArg Host.Outcome.next (ackHandling_of_acknowledged hbusy ha now)⟩,
   fun h => congrArg Host.Outcome.next (ackHandling_of_settled h now)⟩

/-! ## `DATA_HANDLING` (44_link_rx.md R191) -/

theorem exec_dataHandling {d : List Byte} (hlo : 5 ≤ d.length) (hhi : d.length ≤ 252) (q : Byte) (now : Time) (s : State) :
    exec (.dataHandling q d now) s = finish (dataHandling q d s) :=
  if_pos (wf_dataHandling_iff.2 ⟨hlo, hhi⟩)

theorem dataHandling_of_held {q : Byte} {s : State} (hq : q = s.inb.peerSeq) (hheld : s.inb.incomingLen ≠ 0) (d : List Byte) :
    dataHandling q d s = .ok s :=
  (if_pos hq).trans (if_pos (by bv_omega))

theorem dataHandling_of_read {q : Byte} {s : State} (hq : q = s.inb.peerSeq) (hempty : s.inb.incomingLen = 0) (d : List Byte) :
    dataHandling q d s = .ok (setAckRequired s true) :=
  (if_pos hq).trans (if_neg (by bv_omega))

/-- The state a new message leaves: the stash written from index 0, the message held under the number `q`. -/
def messageHeld (q : Byte) (msg : List Byte) (s : State) : State :=
  { setBuf s .incoming (memWriteBytes (getBuf s .incoming) 0 msg) with
    inb := { s.inb with peerSeq := q, incomingLen := BitVec.ofNat 8 msg.length } }

theorem dataHandling_of_new {q : Byte} {d : List Byte} {s : State} (hd : d.length ≤ 252) (hq : q ≠ s.inb.peerSeq) :
    dataHandling q d s = .ok (messageHeld q (payloadMsg d) s) := by
  obtain ⟨hsame, _⟩ | ⟨hsame, _⟩ | ⟨_, e⟩ := dataHandling_cases q s hd
  · exact absurd hsame hq
  · exact absurd hsame hq
  · exact e

theorem payloadMsg_length (d : List Byte) : (payloadMsg d).length = d.length - 4 := by simp [payloadMsg]

theorem messageHeld_incomingLen_toNat {d : List Byte} (hd : d.length ≤ 252) (q : Byte) (s : State) :
    (messageHeld q (payloadMsg d) s).inb.incomingLen.toNat = d.length - 4 := by
  change (BitVec.ofNat 8 (payloadMsg d).length).toNat = _
  rw [payloadMsg_length, BitVec.toNat_ofNat]
  omega

/-- Settles O39, one equation per way. -/
theorem dataHandlingThreeWays : Obligations.DataHandlingThreeWays := by
  intro s q d now hlo hhi
  simp only [exec_dataHandling hlo hhi]
  refine ⟨fun hq hheld => ?_, fun hq hempty => ?_, fun hq hw => ?_⟩
  · rw [dataHandling_of_held hq hheld, finish_ok]
  · rw [dataHandling_of_read hq hempty]; rfl
  · have written : firstBytes (messageHeld q (payloadMsg d) s) .incoming (payloadMsg d).length = payloadMsg d :=
      firstBytes_of_written rfl hw
    have kept : BytesKeptBut .incoming (payloadMsg d).length s (messageHeld q (payloadMsg d) s) := bytesKeptBut_of_written rfl
    rw [payloadMsg_length] at written kept
    exact ⟨_, congrArg finish (dataHandling_of_new hhi hq), written, kept, messageHeld_incomingLen_toNat hhi q s, rfl⟩

/-- The peer's number `q` is known and its message held, or its acknowledgement is owed: `DATA_HANDLING` of `q` has nothing to do. -/
def DataSettled (q : Byte) (s : State) : Prop := q = s.inb.peerSeq ∧ (s.inb.incomingLen ≠ 0 ∨ s.inb.ackRequired = true)

theorem dataHandling_of_settled {q : Byte} {s : State} (h : DataSettled q s) (d : List Byte) : dataHandling q d s = .ok s := by
  obtain ⟨hq, hsettled⟩ := h
  by_cases hempty : s.inb.incomingLen = 0
  · have owed : s.inb.ackRequired = true := hsettled.resolve_left (absurd hempty)
    rw [dataHandling_of_read hq hempty, setAckRequired, ← owed]
  · exact dataHandling_of_held hq hempty d

/-- A message is taken once: handled again at once it is a repeated number with nothing left to do. -/
theorem dataHandling_settles {q : Byte} {d : List Byte} {s t : State} (hlo : 5 ≤ d.length) (hhi : d.length ≤ 252)
    (h : dataHandling q d s = .ok t) : DataSettled q t := by
  by_cases hq : q = s.inb.peerSeq
  · by_cases hempty : s.inb.incomingLen = 0
    · cases (dataHandling_of_read hq hempty d).symm.trans h
      exact ⟨hq, .inr rfl⟩
    · cases (dataHandling_of_held hq hempty d).symm.trans h
      exact ⟨hq, .inl hempty⟩
  · cases (dataHandling_of_new hhi hq).symm.trans h
    refine ⟨rfl, .inl fun hzero => ?_⟩
    have hlen := messageHeld_incomingLen_toNat hhi q s
    rw [hzero] at hlen
    simp only [BitVec.ofNat_eq_ofNat, BitVec.toNat_ofNat] at hlen
    omega

theorem dataHandling_answers (q : Byte) {d : List Byte} (s : State) (hd : d.length ≤ 252) : Answers (dataHandling q d s) := by
  rcases dataHandling_cases q s hd with ⟨_, _, e⟩ | ⟨_, _, e⟩ | ⟨_, e⟩ <;> exact ⟨_, e⟩

/-- `DATA_HANDLING` writes neither the outbound half nor `last_rx`. -/
theorem dataHandling_keeps {q : Byte} {d : List Byte} {s t : State} (hd : d.length ≤ 252) (h : dataHandling q d s = .ok t) :
    t.params = s.params ∧ t.outb = s.outb ∧ t.inb.lastRx = s.inb.lastRx ∧ t.clk = s.clk := by
  rcases dataHandling_cases q s hd with ⟨_, _, e⟩ | ⟨_, _, e⟩ | ⟨_, e⟩ <;> cases e.symm.trans h <;> exact ⟨rfl, rfl, rfl, rfl⟩

/-! ## A payload by its length and its CRC (44_link_rx.md R185 to R188) -/

theorem receivePayload_of_wrongLength {d : List Byte} (h : d.length < 4 ∨ 252 < d.length) (now : Time) (s : State) :
    receivePayload d now s = .ok (raiseError .malformedFrame s) := if_pos h

@[simp] theorem payloadComputedCrc_payloadOf (msg : List Byte) (a o : Byte) (c : U16) :
    payloadComputedCrc (payloadOf msg a o c) = crc16 (msg ++ [a, o]) := by
  rw [payloadComputedCrc, payloadOf_length, payloadOf, List.take_left' (by simp [payloadHead]), payloadHead]

/-- A payload put together from fields, its length in range: the CRC decides, then the message, if there is one. -/
theorem receivePayload_payloadOf {msg : List Byte} (h : msg.length ≤ 248) (a o : Byte) (c : U16) (now : Time) (s : State) :
    receivePayload (payloadOf msg a o c) now s =
      if c ≠ crc16 (msg ++ [a, o]) then .ok (raiseError .crcMismatch s)
      else if msg = [] then .ok (ackHandling a now (goodFrame now s))
      else dataHandling o (payloadOf msg a o c) (ackHandling a now (goodFrame now s)) := by
  have in_range : ¬(msg.length + 4 < 4 ∨ 252 < msg.length + 4) := by omega
  have carries_iff : 4 < msg.length + 4 ↔ ¬msg = [] := by rw [← List.length_eq_zero_iff]; omega
  simp only [receivePayload, payloadOf_length, Config.hdrLen, Config.maxPayload, payloadComputedCrc_payloadOf, payloadCrc_payloadOf,
    payloadAck_payloadOf, payloadSeq_payloadOf, if_neg in_range, carries_iff, ne_comm, ite_not]

/-! ## The kinds of frame (30_encoding.md R82) -/

theorem exec_frameShort {d : List Byte} (h : d.length < 4) (s : State) : exec (.frameShort d) s = receiveNow d s :=
  if_pos (wf_frameShort_iff.2 h)

theorem exec_frameAckOnly (a o : Byte) (c : U16) (s : State) :
    exec (.frameAckOnly a o c) s = receiveNow (payloadOf [] a o c) s := rfl

theorem exec_frameData {msg : List Byte} (hlo : 1 ≤ msg.length) (hhi : msg.length ≤ 248) (a o : Byte) (c : U16) (s : State) :
    exec (.frameData msg a o c) s = receiveNow (payloadOf msg a o c) s :=
  if_pos (wf_frameData_iff.2 ⟨hlo, hhi⟩)

theorem exec_frameLong {d : List Byte} (h : 252 < d.length) (s : State) : exec (.frameLong d) s = receiveNow d s :=
  if_pos (wf_frameLong_iff.2 h)

/-- The four kinds share one action; the length that selects the kind is the one its operand needs. -/
theorem exec_decodeFrame (d : List Byte) (s : State) : exec (decodeFrame d) s = receiveNow d s := by
  by_cases hshort : d.length < 4
  · rw [decodeFrame_short hshort, exec_frameShort hshort]
  · by_cases hlong : 252 < d.length
    · rw [decodeFrame_long hlong, exec_frameLong hlong]
    · obtain ⟨msg, a, o, c, rfl⟩ := exists_payloadOf (not_lt.1 hshort)
      have hhi : msg.length ≤ 248 := by rw [payloadOf_length] at hlong; omega
      by_cases hmsg : msg = []
      · subst hmsg
        rw [decodeFrame_ackOnly, exec_frameAckOnly]
      · have hlo : 1 ≤ msg.length := List.length_pos_of_ne_nil hmsg
        rw [decodeFrame_data hlo hhi, exec_frameData hlo hhi]

/-- Settles O33: both kinds fail the length test. -/
theorem wrongLengthFrameDiscarded : Obligations.WrongLengthFrameDiscarded := fun s _ =>
  ⟨fun h => (exec_frameShort h s).trans (congrArg finish (receivePayload_of_wrongLength (.inl h) _ s)),
   fun h => (exec_frameLong h s).trans (congrArg finish (receivePayload_of_wrongLength (.inr h) _ s))⟩

/-- Settles O34: the length is in range, so the CRC decides, with a message or without. -/
theorem badCrcFrameDiscarded : Obligations.BadCrcFrameDiscarded := by
  intro s msg a o c hc
  have discarded (hhi : msg.length ≤ 248) : receiveNow (payloadOf msg a o c) s = .next (raiseError .crcMismatch s) := by
    rw [receiveNow, receivePayload_payloadOf hhi, if_pos hc, finish_ok]
  refine ⟨?_, fun hlo hhi => (exec_frameData hlo hhi a o c s).trans (discarded hhi)⟩
  rintro rfl
  exact (exec_frameAckOnly a o c s).trans (discarded (Nat.zero_le _))

/-! ## Good frames (44_link_rx.md R188, R189, R191) -/

theorem exec_frameAckOnly_good (a o : Byte) (s : State) :
    exec (.frameAckOnly a o (crc16 [a, o])) s = .next (ackHandling a (clkTime s.clk) (goodFrame (clkTime s.clk) s)) := by
  rw [exec_frameAckOnly, receiveNow, receivePayload_payloadOf (Nat.zero_le _)]
  simp

theorem exec_frameData_good {msg : List Byte} (hlo : 1 ≤ msg.length) (hhi : msg.length ≤ 248) (a o : Byte) (s : State) :
    exec (.frameData msg a o (crc16 (msg ++ [a, o]))) s =
      finish (dataHandling o (buildPayload msg a o) (ackHandling a (clkTime s.clk) (goodFrame (clkTime s.clk) s))) := by
  have carries : msg ≠ [] := List.ne_nil_of_length_pos hlo
  rw [exec_frameData hlo hhi, receiveNow, receivePayload_payloadOf hhi, if_neg (not_not.2 rfl), if_neg carries]
  rfl

theorem buildPayload_length (msg : List Byte) (a o : Byte) : (buildPayload msg a o).length = msg.length + 4 := payloadOf_length _ _ _ _

/-- Settles O35: the state between acknowledgement and data is the one an ack-only frame ends in. -/
theorem goodFrameIsProcessedInOrder : Obligations.GoodFrameIsProcessedInOrder := by
  intro s msg a o
  refine ⟨ackHandling a (clkTime s.clk) (goodFrame (clkTime s.clk) s), rfl, fun _ => exec_frameAckOnly_good a o s, fun hlo hhi => ?_⟩
  have hlen := buildPayload_length msg a o
  obtain ⟨t, ht⟩ := dataHandling_answers o (d := buildPayload msg a o)
    (ackHandling a (clkTime s.clk) (goodFrame (clkTime s.clk) s)) (by omega)
  exact ⟨t, (exec_dataHandling (d := buildPayload msg a o) (by omega) (by omega) o _ _).trans (congrArg finish ht),
    (exec_frameData_good hlo hhi a o s).trans (congrArg finish ht)⟩

/-- A second good frame at the same time only counts. -/
theorem goodFrame_of_received {now : Time} {s : State} (h : s.inb.lastRx = now) :
    goodFrame now s = { s with stat := { s.stat with rxOk := countUp s.params s.stat.rxOk } } := by
  subst h; rfl

/-- Settles O36: the first copy leaves its acknowledgement and its number settled, and `last_rx` at the time of the second. -/
theorem repeatedFrameOnlyCounts : Obligations.RepeatedFrameOnlyCounts := by
  intro s msg a o hlo hhi
  have hlen := buildPayload_length msg a o
  obtain ⟨params, inb, clk⟩ := ackHandling_keeps a (clkTime s.clk) (goodFrame (clkTime s.clk) s)
  obtain ⟨t, ht⟩ := dataHandling_answers o (d := buildPayload msg a o)
    (ackHandling a (clkTime s.clk) (goodFrame (clkTime s.clk) s)) (by omega)
  obtain ⟨params', outb, lastRx, clk'⟩ := dataHandling_keeps (by omega) ht
  have ack_settled : AckSettled a t := by
    rw [AckSettled, outb]
    exact ackHandling_settles a _ _
  have data_settled : DataSettled o t := dataHandling_settles (by omega) (by omega) ht
  have received_now : t.inb.lastRx = clkTime t.clk := by
    rw [lastRx, inb, clk', clk]; rfl
  have same_params : t.params = s.params := params'.trans params
  refine ⟨t, (exec_frameData_good hlo hhi a o s).trans (congrArg finish ht), data_settled.1.symm, ?_⟩
  rw [exec_frameData_good hlo hhi, goodFrame_of_received received_now, ackHandling_of_settled (by exact ack_settled),
    dataHandling_of_settled (by exact data_settled), finish_ok, countUp, same_params]

end Sys2Proof.Machine
end

section
/-! The receive buffer (44_link_rx.md R184, R185): one byte stored at `rx_wp`, a frame decoded in place, and what either leaves alone. -/

namespace Sys2Proof.Machine

/-! ## `RX_BYTE` (44_link_rx.md R184) -/

/-- The byte `b` stored at `rx_wp`, the pointer not yet moved. -/
def byteStored (b : Byte) (s : State) : State := setBuf s .rx (memWriteByte (getBuf s .rx) s.ptr.rxWp.toNat b)

section Stored

variable {s t : State} {b : Byte} (h : t.buf = (byteStored b s).buf)
include h

theorem byteAt_of_stored (hw : s.buf.rx.wf = true) : byteAt t .rx s.ptr.rxWp.toNat = b := by
  rw [byteAt, getBuf_congr h, byteStored, getBuf_setBuf_same]
  exact memReadByte_writeByte_same b hw

theorem byteAt_of_stored_elsewhere {a : Nat} (ha : a ≠ s.ptr.rxWp.toNat) : byteAt t .rx a = byteAt s .rx a := by
  rw [byteAt, getBuf_congr h, byteStored, getBuf_setBuf_same, memReadByte_writeByte_ne _ _ ha, byteAt]

theorem byteAt_of_stored_other {b' : Buffer} (hb : b' ≠ .rx) (a : Nat) : byteAt t b' a = byteAt s b' a := by
  rw [byteAt, getBuf_congr h, byteStored, getBuf_setBuf_ne s _ hb, byteAt]

end Stored

/-- A byte that is no delimiter is stored; the pointer wraps behind the last slot (60_exceptions.md R252). -/
theorem exec_rxByte_of_data {b : Byte} {s : State} (hb : b ≠ Config.delim) (hroom : s.ptr.rxWp.toNat < 256) (now : Time) :
    exec (.rxByte b now) s = .next (setRxWp (byteStored b s) (if s.ptr.rxWp.toNat = 255 then 0 else s.ptr.rxWp + 1)) := by
  refine finish_eq_next.2 ?_
  obtain ⟨_, rfl, ⟨hdelim, _⟩ | ⟨_, hlast, e⟩ | ⟨_, hmore, e⟩⟩ := rxByte_cases (b := b) (now := now) hroom
  · exact absurd hdelim hb
  · rw [e, if_pos (Nat.succ.inj hlast), byteStored]
  · rw [e, if_neg (Nat.ne_of_lt (Nat.lt_of_succ_lt_succ hmore)), byteStored]

theorem exec_rxFrame {n : Nat} (hlo : 1 ≤ n) (hhi : n ≤ 256) (now : Time) (s : State) :
    exec (.rxFrame n now) s = finish (rxFrame n now s) :=
  if_pos (wf_rxFrame_iff.2 ⟨hlo, hhi⟩)

/-- A delimiter is stored; the bytes up to it are a frame, with nothing accumulated any more. -/
theorem exec_rxByte_of_delim {s : State} (hroom : s.ptr.rxWp.toNat < 256) (now : Time) :
    exec (.rxByte Config.delim now) s =
      exec (.rxFrame (s.ptr.rxWp.toNat + 1) now) (setRxWp (byteStored Config.delim s) 0) := by
  rw [exec_rxFrame (Nat.le_add_left _ _) hroom]
  obtain ⟨_, rfl, ⟨_, e⟩ | ⟨hdata, _⟩ | ⟨hdata, _⟩⟩ := rxByte_cases (b := Config.delim) (now := now) hroom
  · exact congrArg finish e
  · exact absurd rfl hdata
  · exact absurd rfl hdata

/-- Settles O29. -/
theorem receivedByteIsStored : Obligations.ReceivedByteIsStored := fun _ _ now hb hroom hw =>
  ⟨_, exec_rxByte_of_data hb hroom now, byteAt_of_stored rfl hw, fun _ ha => byteAt_of_stored_elsewhere rfl ha,
   fun _ a hb' => byteAt_of_stored_other rfl hb' a, rfl, rfl⟩

/-- Settles O30: `RX_BYTE` completes whatever the byte is. -/
theorem delimiterCompletesFrame : Obligations.DelimiterCompletesFrame := by
  intro s now hroom hw
  obtain ⟨t, ht, _⟩ := RxReady.exec_rxByte ⟨hroom, hw⟩ Config.delim now
  exact ⟨setRxWp (byteStored Config.delim s) 0, t, ht, (exec_rxByte_of_delim hroom now).symm.trans ht, byteAt_of_stored rfl hw,
    fun _ ha => byteAt_of_stored_elsewhere rfl ha, fun _ a hb' => byteAt_of_stored_other rfl hb' a, rfl⟩

/-! ## `RX_FRAME` (44_link_rx.md R185, 40_cobs.md R104) -/

/-- Settles O32: inside a tick the time of the clock registers is the `now` of the frame kinds (log 21). -/
theorem frameIsDecodedInPlace : Obligations.FrameIsDecodedInPlace := by
  intro s n now hlo hhi hw
  have decoded := rxFrame_eq now s hhi
  obtain ⟨t, ht⟩ := receivePayload_ok (cobsDec (firstBytes s .rx n)) now
    (setBuf s .rx (memWriteBytes s.buf.rx 0 (cobsDec (firstBytes s .rx n))))
  refine ⟨_, t, (exec_rxFrame hlo hhi now s).trans (congrArg finish (decoded.trans ht)), firstBytes_of_written rfl hw,
    bytesKeptBut_of_written rfl, rfl, fun hnow => ?_⟩
  subst hnow
  exact (exec_decodeFrame _ _).trans (congrArg finish ht)

end Sys2Proof.Machine
end

section
/-! The drain loop and the tick around it (44_link_rx.md R180, R181): one turn of the loop, what the bytes of one drain can change, the
four phases, and what of all this no other operation does. -/

namespace Sys2Proof.Machine

/-! ## One turn of `RX_DRAIN` (44_link_rx.md R181) -/

theorem finish_eq_fault {r : Except Fault State} {f : Fault} : finish r = .fault f ↔ r = .error f := by
  cases r <;> simp [finish]

/-- Of two writes of `rx_buf` around one of `rx_wp` the later holds. -/
theorem setBuf_setRxWp_setBuf (s : State) (m m' : Memory) (wp : BitVec 9) :
    setBuf (setRxWp (setBuf s .rx m) wp) .rx m' = setRxWp (setBuf s .rx m') wp := rfl

/-- `RX_BYTE` writes `rx_buf` and `rx_wp`, which stays inside the buffer, and at most acts on a payload then. -/
theorem rxByte_eq_ok {b : Byte} {now : Time} {s t : State} (h : rxByte b now s = .ok t) :
    ∃ m wp, wp.toNat < 256 ∧ (t = setRxWp (setBuf s .rx m) wp ∨ ∃ d, receivePayload d now (setRxWp (setBuf s .rx m) wp) = .ok t) := by
  have hroom := rxWp_lt_of_rxByte_ok h
  obtain ⟨_, rfl, ⟨_, e⟩ | ⟨_, _, e⟩ | ⟨_, hmore, e⟩⟩ := rxByte_cases (b := b) (now := now) hroom
  · obtain ⟨d, _, hpayload⟩ := rxFrame_eq_ok (e.symm.trans h)
    rw [setBuf_setRxWp_setBuf] at hpayload
    exact ⟨_, 0, by decide, .inr ⟨d, hpayload⟩⟩
  · cases e.symm.trans h
    exact ⟨_, 0, by decide, .inl rfl⟩
  · cases e.symm.trans h
    simp only [Config.bufCap] at hmore
    exact ⟨_, s.ptr.rxWp + 1, by bv_omega, .inl rfl⟩

theorem rxByte_room {b : Byte} {now : Time} {s t : State} (h : rxByte b now s = .ok t) : t.ptr.rxWp.toNat < 256 := by
  obtain ⟨_, _, hwp, rfl | ⟨_, hpayload⟩⟩ := rxByte_eq_ok h
  · exact hwp
  · obtain ⟨_, _, hptr, _⟩ := receivePayload_keeps hpayload
    rw [hptr]
    exact hwp

theorem rxByte_env {b : Byte} {now : Time} {s t : State} (h : rxByte b now s = .ok t) : t.env = s.env := by
  obtain ⟨_, _, _, rfl | ⟨_, hpayload⟩⟩ := rxByte_eq_ok h
  · rfl
  · obtain ⟨_, _, _, _, henv, _⟩ := receivePayload_keeps hpayload
    exact henv

/-- A batch that joins the FIFO was counted among the arrivals. -/
theorem drainBound_pollArrivals (s : State) : drainBound (pollArrivals s) = drainBound s := by
  unfold pollArrivals
  split
  case h_1 => rfl
  case h_2 a as harrivals => simp [drainBound, harrivals, Nat.add_assoc]

/-- Each byte received is one less to come. -/
theorem drainBound_of_byte {b : Byte} {rest : List Byte} {now : Time} {s t : State} (hf : (pollArrivals s).env.rxFifo = b :: rest)
    (h : rxByte b now (tReadLeaves (pollArrivals s) rest) = .ok t) : drainBound s = drainBound t + 1 := by
  rw [← drainBound_pollArrivals, drainBound, drainBound, rxByte_env h, hf]
  simp only [tReadLeaves_env_rxFifo, tReadLeaves_env_arrivals, List.length_cons]
  omega

theorem rxDrain_of_empty {s : State} (hf : (pollArrivals s).env.rxFifo = []) (now : Time) : rxDrain now s = .ok (pollArrivals s) := by
  rw [rxDrain, drainLoop, hf]

/-- The loop goes on with exactly the fuel its next start would take. -/
theorem rxDrain_of_byte {b : Byte} {rest : List Byte} {s : State} (hf : (pollArrivals s).env.rxFifo = b :: rest) (now : Time) :
    rxDrain now s = andThen (rxByte b now (tReadLeaves (pollArrivals s) rest)) (rxDrain now) := by
  rw [rxDrain, drainLoop, hf]
  dsimp only
  cases hbyte : rxByte b now (tReadLeaves (pollArrivals s) rest) with
  | error f => rfl
  | ok t => rw [andThen_ok, andThen_ok, rxDrain, drainBound_of_byte hf hbyte]

/-- Settles O27: one turn of the loop, whichever way `RX_BYTE` ends. -/
theorem drainReadsByteByByte : Obligations.DrainReadsByteByByte := by
  refine fun s now => ⟨fun hf => congrArg finish (rxDrain_of_empty hf now), fun b rest hf => ⟨fun t ht => ?_, fun f hfault => ?_⟩⟩
  · refine congrArg finish ((rxDrain_of_byte hf now).trans ?_)
    rw [finish_eq_next.1 ht, andThen_ok]
  · refine finish_eq_fault.2 ((rxDrain_of_byte hf now).trans ?_)
    rw [finish_eq_fault.1 hfault, andThen_error]

/-! ## What a drain can change -/

/-- Of the outbound half the receive path resets the three registers of an acknowledged message, or nothing (44_link_rx.md R189). -/
def OutboundKeptOrReset (o o' : Outbound) : Prop := o' = o ∨ o' = { o with outgoingLen := 0, lastTxTime := 0, retryCount := 0 }

theorem OutboundKeptOrReset.trans {o o' o'' : Outbound} (h : OutboundKeptOrReset o o') (h' : OutboundKeptOrReset o' o'') :
    OutboundKeptOrReset o o'' := by
  obtain rfl | rfl := h <;> obtain rfl | rfl := h'
  · exact .inl rfl
  · exact .inr rfl
  · exact .inr rfl
  · exact .inr rfl

theorem ackHandling_outbound (a : Byte) (now : Time) (s : State) : OutboundKeptOrReset s.outb (ackHandling a now s).outb := by
  rcases ackHandling_cases a now s with ⟨_, _, e⟩ | ⟨_, e⟩ <;> rw [e]
  · exact .inr rfl
  · exact .inl rfl

theorem receivePayload_outbound {d : List Byte} {now : Time} {s t : State} (h : receivePayload d now s = .ok t) :
    OutboundKeptOrReset s.outb t.outb := by
  have good := ackHandling_outbound (payloadAck d) now (goodFrame now s)
  rcases receivePayload_cases d now s with ⟨_, e⟩ | ⟨_, _, _, e⟩ | ⟨_, _, e⟩ | ⟨_, hhi, _, e⟩
  · cases e.symm.trans h; exact .inl rfl
  · cases e.symm.trans h; exact .inl rfl
  · cases e.symm.trans h; exact good
  · obtain ⟨_, houtb, _⟩ := dataHandling_keeps hhi (e.symm.trans h)
    exact houtb ▸ good

theorem UnitsKept.refl (s : State) : UnitsKept s s := ⟨rfl, rfl, rfl, rfl, rfl⟩

theorem UnitsKept.trans {s t u : State} (h : UnitsKept s t) (h' : UnitsKept t u) : UnitsKept s u := by
  obtain ⟨params, cfg, clk, host, cobs⟩ := h
  obtain ⟨params', cfg', clk', host', cobs'⟩ := h'
  exact ⟨params'.trans params, cfg'.trans cfg, clk'.trans clk, host'.trans host, cobs'.trans cobs⟩

/-- From `s` to `t` bytes were received: what arrived was taken, and nothing of the sending side is touched but what R189 resets. -/
structure ReceivesOnly (s t : State) : Prop where
  units : UnitsKept s t
  env : t.env = { s.env with rxFifo := t.env.rxFifo, arrivals := t.env.arrivals }
  ptr : t.ptr = { s.ptr with rxWp := t.ptr.rxWp }
  outb : OutboundKeptOrReset s.outb t.outb
  ackSeq : t.inb.ackSeq = s.inb.ackSeq
  outgoing : t.buf.outgoing = s.buf.outgoing
  tx : t.buf.tx = s.buf.tx

theorem ReceivesOnly.trans {s t u : State} (h : ReceivesOnly s t) (h' : ReceivesOnly t u) : ReceivesOnly s u where
  units := h.units.trans h'.units
  env := by rw [h'.env, h.env]
  ptr := by rw [h'.ptr, h.ptr]
  outb := h.outb.trans h'.outb
  ackSeq := h'.ackSeq.trans h.ackSeq
  outgoing := h'.outgoing.trans h.outgoing
  tx := h'.tx.trans h.tx

theorem receivePayload_receivesOnly {d : List Byte} {now : Time} {s t : State} (h : receivePayload d now s = .ok t) :
    ReceivesOnly s t := by
  obtain ⟨params, cfg, ptr, clk, env, host, cobs, buf⟩ := receivePayload_keeps h
  exact ⟨⟨params, cfg, clk, host, cobs⟩, by rw [env], by rw [ptr], receivePayload_outbound h, (receivePayload_identityKept h).ackSeq,
    by rw [buf], by rw [buf]⟩

theorem receivesOnly_setRx (s : State) (m : Memory) (wp : BitVec 9) : ReceivesOnly s (setRxWp (setBuf s .rx m) wp) :=
  ⟨UnitsKept.refl s, rfl, rfl, .inl rfl, rfl, rfl, rfl⟩

theorem rxByte_receivesOnly {b : Byte} {now : Time} {s t : State} (h : rxByte b now s = .ok t) : ReceivesOnly s t := by
  obtain ⟨m, wp, _, rfl | ⟨_, hpayload⟩⟩ := rxByte_eq_ok h
  · exact receivesOnly_setRx s m wp
  · exact (receivesOnly_setRx s m wp).trans (receivePayload_receivesOnly hpayload)

theorem pollArrivals_receivesOnly (s : State) : ReceivesOnly s (pollArrivals s) := by
  unfold pollArrivals
  split <;> exact ⟨UnitsKept.refl s, rfl, rfl, .inl rfl, rfl, rfl, rfl⟩

theorem tReadLeaves_receivesOnly (s : State) (rest : List Byte) : ReceivesOnly s (tReadLeaves s rest) :=
  ⟨UnitsKept.refl s, rfl, rfl, .inl rfl, rfl, rfl, rfl⟩

/-- A drain ends, by induction on the bytes still to come: each byte finds room, and leaves room for the next. -/
theorem rxDrain_empties (now : Time) {s : State} (hroom : s.ptr.rxWp.toNat < 256) :
    ∃ t, rxDrain now s = .ok t ∧ t.env.rxFifo = [] ∧ t.ptr.rxWp.toNat < 256 ∧ ReceivesOnly s t := by
  induction hn : drainBound s using Nat.strong_induction_on generalizing s with
  | _ n ih =>
    have polled := pollArrivals_receivesOnly s
    cases hf : (pollArrivals s).env.rxFifo with
    | nil => exact ⟨_, rxDrain_of_empty hf now, hf, by rwa [pollArrivals_ptr], polled⟩
    | cons b rest =>
      obtain ⟨u, hbyte⟩ := rxByte_answers b now (s := tReadLeaves (pollArrivals s) rest) (by rw [tReadLeaves_ptr, pollArrivals_ptr]; exact hroom)
      have fewer : drainBound u < n := by have := drainBound_of_byte hf hbyte; omega
      obtain ⟨t, ht, empty, room, rest_only⟩ := ih _ fewer (rxByte_room hbyte) rfl
      refine ⟨t, ?_, empty, room,
        polled.trans <| (tReadLeaves_receivesOnly _ rest).trans <| (rxByte_receivesOnly hbyte).trans rest_only⟩
      rw [rxDrain_of_byte hf, hbyte, andThen_ok, ht]

/-- Settles O28. -/
theorem drainEmptiesTheFifo : Obligations.DrainEmptiesTheFifo := by
  intro s now hroom
  obtain ⟨t, ht, empty, room, units, env, ptr, outb, ackSeq, outgoing, tx⟩ := rxDrain_empties now hroom
  refine ⟨t, congrArg finish ht, empty, empty ▸ env, room, by rw [ptr], by rw [ptr], outb, ackSeq, units,
    fun a => congrArg (memReadByte · a) outgoing, fun a => congrArg (memReadByte · a) tx⟩

/-! ## The phases of `TICK` (44_link_rx.md R180) -/

theorem loadFrame_unitsKept {msg : List Byte} {s t : State} (h : loadFrame msg s = .ok t) : UnitsKept s t := by
  obtain ⟨_, _, _, rfl⟩ := loadFrame_eq_ok h
  exact ⟨rfl, rfl, rfl, rfl, rfl⟩

theorem loadDataFrame_unitsKept {now : Time} {s t : State} (h : loadDataFrame now s = .ok t) : UnitsKept s t := by
  obtain ⟨_, hload, rfl⟩ := loadDataFrame_eq_ok h
  obtain ⟨params, cfg, clk, host, cobs⟩ := loadFrame_unitsKept hload
  exact ⟨params, cfg, clk, host, cobs⟩

theorem branchRetransmit_unitsKept {now : Time} {s t : State} (h : branchRetransmit now s = .ok t) : UnitsKept s t := by
  obtain ⟨_, rfl, rfl | ⟨_, hload⟩⟩ := branchRetransmit_eq_ok h
  · exact ⟨rfl, rfl, rfl, rfl, rfl⟩
  · exact UnitsKept.trans (by exact ⟨rfl, rfl, rfl, rfl, rfl⟩) (loadDataFrame_unitsKept hload)

theorem branchAck_unitsKept {now : Time} {s t : State} (h : branchAck now s = .ok t) : UnitsKept s t := by
  obtain ⟨_, hload, rfl⟩ := branchAck_eq_ok h
  obtain ⟨params, cfg, clk, host, cobs⟩ := loadFrame_unitsKept hload
  exact ⟨params, cfg, clk, host, cobs⟩

theorem txSelectWhenEmpty_unitsKept {now : Time} {s t : State} (h : txSelectWhenEmpty now s = .ok t) : UnitsKept s t := by
  unfold txSelectWhenEmpty at h
  split at h
  case isFalse => cases h; exact UnitsKept.refl s
  case isTrue =>
    rcases txSelect_cases now s with ⟨_, e⟩ | ⟨_, _, _, e⟩ | ⟨_, _, _, e⟩ | ⟨_, _, _, _, e⟩ | ⟨_, _, _, _, e⟩ <;> rw [e] at h
    · exact loadDataFrame_unitsKept h
    · exact branchRetransmit_unitsKept h
    · exact branchAck_unitsKept h
    · exact branchAck_unitsKept h
    · cases h; exact UnitsKept.refl s

theorem txPush_unitsKept {s t : State} (h : txPush s = .ok t) : UnitsKept s t := by
  obtain rfl | ⟨_, k, _, _, rfl⟩ := txPush_eq_ok h
  · exact UnitsKept.refl _
  · exact ⟨advanceTx_params k _, advanceTx_cfg k _, advanceTx_clk k _, advanceTx_host k _, advanceTx_cobs k _⟩

/-- Settles O47: after its sample no phase writes the host's side, so the response is all that `TICK` changes there. -/
theorem tickRunsItsPhases : Obligations.TickRunsItsPhases := by
  intro s hc hs
  obtain ⟨w, hw⟩ := hs.tickPhases_answers hc
  obtain ⟨u, v, hdrain, hselect, hpush⟩ := tickPhases_eq_ok hw
  have room : (clkSample s).2.ptr.rxWp.toNat < 256 := by rw [clkSample_ptr]; exact hs.rxWpRange
  have drained : UnitsKept (clkSample s).2 u := by
    obtain ⟨_, hu, _, _, only⟩ := rxDrain_empties (clkSample s).1 room
    cases hu.symm.trans hdrain
    exact only.units
  obtain ⟨_, _, _, host, _⟩ := drained.trans ((txSelectWhenEmpty_unitsKept hselect).trans (txPush_unitsKept hpush))
  refine ⟨(clkSample s).2, u, v, w, congrArg Prod.snd (clkSample_eq s), congrArg finish hdrain, congrArg finish hselect,
    congrArg finish hpush, ?_⟩
  have ticked : exec .tick s = .next (respond w .none) := (whenConfigured_of_configured hc _).trans (by rw [hw]; rfl)
  rw [ticked, respond, host, clkSample_host]

/-! ## What no operation but `TICK` does (10_state.md R32, R33) -/

/-- Both FIFOs, the statistics, the pointers and the two working buffers are as they were. -/
structure LineKept (s t : State) : Prop where
  rxFifo : t.env.rxFifo = s.env.rxFifo
  txFifo : t.env.txFifo = s.env.txFifo
  stat : t.stat = s.stat
  ptr : t.ptr = s.ptr
  tx : t.buf.tx = s.buf.tx
  rx : t.buf.rx = s.buf.rx

theorem LineKept.respond {s t : State} (h : LineKept s t) (r : Response) : LineKept s (Machine.respond t r) :=
  ⟨h.rxFifo, h.txFifo, h.stat, h.ptr, h.tx, h.rx⟩

theorem LineKept.refl (s : State) : LineKept s s := ⟨rfl, rfl, rfl, rfl, rfl, rfl⟩

/-- The counter is an input of its own. -/
theorem lineKept_clkSample (s : State) : LineKept s (clkSample s).2 :=
  ⟨readMicros_env_rxFifo s, readMicros_env_txFifo s, clkSample_stat s, clkSample_ptr s, by rw [clkSample_buf], by rw [clkSample_buf]⟩

/-- `SEND` writes the outbound stash and no working buffer. -/
theorem sendMessage_lineKept {buf : List Byte} {s t : State} (h : sendMessage buf s = .ok t) : LineKept s t := by
  rcases sendMessage_cases buf s with ⟨_, e⟩ | ⟨_, _, e, rfl⟩ <;> cases e.symm.trans h
  · exact LineKept.refl s
  · obtain ⟨rxFifo, txFifo, stat, ptr, tx, rx⟩ := lineKept_clkSample s
    exact ⟨rxFifo, txFifo, stat, ptr, tx, rx⟩

theorem readMessage_lineKept {max : Nat} {s t : State} (h : readMessage max s = .ok t) : LineKept s t := by
  rcases readMessage_cases max s with ⟨_, e⟩ | ⟨_, e⟩ <;> cases e.symm.trans h <;> exact ⟨rfl, rfl, rfl, rfl, rfl, rfl⟩

theorem lineKept_of_whenConfigured {c s t u : State} {r : Response} (hs : LineKept s u)
    (h : whenConfigured c (.next (respond u r)) = .next t) : LineKept s t := by
  cases (whenConfigured_eq_next.1 h).2
  exact hs.respond r

theorem exec_lineKept {i : Instr} {s t : State} (hop : isOperation i = true) (hi : i ≠ .tick) (h : exec i s = .next t) :
    LineKept s t := by
  cases i with
  | tick => exact absurd rfl hi
  | begin baud =>
    obtain ⟨_, _, rfl⟩ := exec_begin_eq_next h
    exact ⟨rfl, rfl, rfl, rfl, rfl, rfl⟩
  | send buf =>
    obtain ⟨_, hu, rfl⟩ := exec_send_eq_next h
    exact (sendMessage_lineKept hu).respond _
  | read max => exact readMessage_lineKept (exec_read_eq_next h)
  | isOpen | clkSample => exact lineKept_of_whenConfigured (lineKept_clkSample s) h
  | clearToSend | clearToRead | stats | crc16 | cobsEnc | cobsDec | backoff => exact lineKept_of_whenConfigured (LineKept.refl s) h
  | _ => cases hop

/-- Settles O58. -/
theorem onlyTickMovesBytes : Obligations.OnlyTickMovesBytes := fun _ _ _ hop hi h =>
  have ⟨rxFifo, txFifo, stat, ptr, tx, rx⟩ := exec_lineKept hop hi h
  ⟨rxFifo, txFifo, stat, ptr, fun a => congrArg (memReadByte · a) tx, fun a => congrArg (memReadByte · a) rx⟩

end Sys2Proof.Machine
end

section
/-! `LOAD_FRAME` and the way of its frame to the other engine (45_link_tx.md R220, 44_link_rx.md R184 to R191): what stands in `tx_buf`, and
what an encoded payload does that is received whole between two frames. -/

namespace Sys2Proof.Machine

/-! ## The frame of a message (30_encoding.md R80, 40_cobs.md R101) -/

theorem encodeWire_length_succ (payload : List Byte) : (encodeWire payload).length = (cobsEnc payload).length + 1 := List.length_append

/-- While no block can fill up, a code byte and the delimiter are all that encoding adds. -/
theorem encodeWire_length {payload : List Byte} (h : payload.length ≤ 252) : (encodeWire payload).length = payload.length + 2 := by
  have hlen := cobsEncFrom_length (input := payload) (blk := []) (by simp only [List.length_nil]; omega)
  rw [encodeWire_length_succ, cobsEnc, hlen, List.length_nil, Nat.zero_add]

theorem frameOf_length {msg : List Byte} (h : msg.length ≤ 248) (a o : Byte) : (frameOf msg a o).length = msg.length + 6 := by
  rw [frameOf, encodeWire_length] <;> rw [payloadOf_length]
  omega

theorem cobsDec_encodeWire (payload : List Byte) : cobsDec (encodeWire payload) = payload :=
  (cobsDec_append_delim (cobsEnc payload) []).trans (cobsDec_cobsEnc payload)

/-! ## `LOAD_FRAME` (45_link_tx.md R220) -/

/-- The state with a frame whole in the transmit buffer, none of it handed over yet. -/
def withFrame (frame : List Byte) (s : State) : State :=
  { setBuf s .tx (memWriteBytes (getBuf s .tx) 0 frame) with ptr := { s.ptr with txLen := BitVec.ofNat 9 frame.length, txRp := 0 } }

theorem loadFrame_eq {msg : List Byte} (h : msg.length ≤ 248) (s : State) :
    loadFrame msg s = .ok (withFrame (frameOf msg s.inb.ackSeq s.outb.ourSeq) s) :=
  loadFrame_ok (frameBytes_length_le h _ _)

theorem exec_loadFrame_of_empty {msg : List Byte} (h : msg.length ≤ 248) {s : State} (hempty : s.ptr.txLen = 0) :
    exec (.loadFrame msg) s = .next (withFrame (frameOf msg s.inb.ackSeq s.outb.ourSeq) s) :=
  (if_pos (wf_loadFrame_iff.2 h)).trans <| (if_pos hempty).trans <| congrArg finish (loadFrame_eq h s)

/-- Settles O45. -/
theorem loadFrameNeedsEmptyBuffer : Obligations.LoadFrameNeedsEmptyBuffer := fun _ _ h hbusy =>
  (if_pos (wf_loadFrame_iff.2 h)).trans (if_neg hbusy)

theorem withFrame_txLen_toNat {frame : List Byte} (h : frame.length ≤ 256) (s : State) :
    (withFrame frame s).ptr.txLen.toNat = frame.length := by
  rw [withFrame, BitVec.toNat_ofNat]
  omega

/-- Whatever registers change besides, the buffers and the pointers say that the frame is loaded. -/
theorem loadsFrame_of_withFrame {frame : List Byte} {s t : State} (h : frame.length ≤ 256) (hw : s.buf.tx.wf = true)
    (hptr : t.ptr = (withFrame frame s).ptr) (hbuf : t.buf = (withFrame frame s).buf) : LoadsFrame frame s t :=
  ⟨hptr ▸ withFrame_txLen_toNat h s, by rw [hptr]; rfl, by rw [hptr]; rfl, firstBytes_of_written hbuf hw, bytesKeptBut_of_written hbuf⟩

/-- Before its delimiter an encoded payload has no 0x00 (40_cobs.md R102). -/
theorem encodeWire_ne_delim {payload : List Byte} {a : Nat} (h : a < (cobsEnc payload).length) (ha : a < (encodeWire payload).length) :
    (encodeWire payload)[a] ≠ Config.delim := fun e => by
  rw [show (encodeWire payload)[a] = (cobsEnc payload)[a] from List.getElem_append_left h] at e
  exact delim_notMem_cobsEnc payload (e ▸ List.getElem_mem h)

theorem byteAt_of_firstBytes {s : State} {b : Buffer} {bs : List Byte} (h : firstBytes s b bs.length = bs) {a : Nat}
    (ha : a < bs.length) : byteAt s b a = bs[a] := by
  have read := memReadBytes_getElem (getBuf s b) 0 bs.length a (by rwa [memReadBytes_length])
  rw [Nat.zero_add] at read
  rw [byteAt, ← read]
  exact getElem_congr_coll h

/-- Settles O44: what stands in the buffer is the encoded payload with its delimiter. -/
theorem loadedFrameCarriesPayload : Obligations.LoadedFrameCarriesPayload := by
  intro s msg hmsg hempty hw
  have hlen := frameOf_length hmsg s.inb.ackSeq s.outb.ourSeq
  have short : (frameOf msg s.inb.ackSeq s.outb.ourSeq).length ≤ 256 := by omega
  obtain ⟨txLen, txRp, _, frame, kept⟩ := loadsFrame_of_withFrame short hw rfl rfl
  have no_zero : ∀ a, a < msg.length + 5 →
      byteAt (withFrame (frameOf msg s.inb.ackSeq s.outb.ourSeq) s) .tx a ≠ 0x00#8 := fun a ha => by
    have inside : a < (frameOf msg s.inb.ackSeq s.outb.ourSeq).length := by omega
    rw [byteAt_of_firstBytes frame inside]
    refine encodeWire_ne_delim ?_ inside
    rw [frameOf, encodeWire_length_succ] at hlen
    omega
  rw [hlen] at txLen frame kept
  refine ⟨_, _, _, rfl, rfl, exec_loadFrame_of_empty hmsg hempty, txLen, txRp, frame, no_zero, ?_, kept, rfl⟩
  rw [frame]
  exact cobsDec_encodeWire _

/-! ## Received whole between two frames (44_link_rx.md R184, R185) -/

/-- Data bytes received into free space: they stand behind what was accumulated. -/
def bytesStored (bs : List Byte) (s : State) : State :=
  setRxWp (setBuf s .rx (memWriteBytes (getBuf s .rx) s.ptr.rxWp.toNat bs)) (s.ptr.rxWp + BitVec.ofNat 9 bs.length)

theorem receiveBytes_of_data (now : Time) {bs : List Byte} (hd : Config.delim ∉ bs) {s : State}
    (hroom : s.ptr.rxWp.toNat + bs.length < 256) : receiveBytes now bs s = .next (bytesStored bs s) := by
  induction bs generalizing s with
  | nil => simp [receiveBytes, bytesStored, memWriteBytes, setRxWp, setBuf, getBuf]
  | cons b bs ih =>
    obtain ⟨hb, hbs⟩ := List.ne_and_not_mem_of_not_mem_cons hd
    rw [List.length_cons] at hroom
    have hwp : (s.ptr.rxWp + 1).toNat = s.ptr.rxWp.toNat + 1 := by bv_omega
    have not_last : s.ptr.rxWp.toNat ≠ 255 := by omega
    rw [receiveBytes, exec_rxByte_of_data (Ne.symm hb) (by omega), if_neg not_last]
    refine (ih hbs (by rw [setRxWp_ptr_rxWp, hwp]; omega)).trans ?_
    have moved : s.ptr.rxWp + 1 + BitVec.ofNat 9 bs.length = s.ptr.rxWp + BitVec.ofNat 9 (bs.length + 1) := by bv_omega
    simp only [bytesStored, byteStored, setRxWp, setBuf, getBuf, memWriteBytes, hwp, List.length_cons, moved]

theorem receiveBytes_append {now : Time} {xs : List Byte} {s t : State} (h : receiveBytes now xs s = .next t) (ys : List Byte) :
    receiveBytes now (xs ++ ys) s = receiveBytes now ys t := by
  induction xs generalizing s with
  | nil => cases h; rfl
  | cons x xs ih =>
    simp only [List.cons_append, receiveBytes] at h ⊢
    split at h
    · exact ih h
    · cases h
    · cases h

theorem receiveBytes_singleton (now : Time) (b : Byte) (s : State) : receiveBytes now [b] s = exec (.rxByte b now) s := by
  rw [receiveBytes]
  cases exec (.rxByte b now) s <;> rfl

theorem memWriteBytes_append (m : Memory) (i : Nat) (xs ys : List Byte) :
    memWriteBytes m i (xs ++ ys) = memWriteBytes (memWriteBytes m i xs) (i + xs.length) ys := by
  induction xs generalizing m i with
  | nil => rfl
  | cons x xs ih =>
    simp only [List.cons_append, memWriteBytes, ih, List.length_cons]
    congr 1
    omega

theorem bytesStored_rxWp_toNat {bs : List Byte} {s : State} (hroom : s.ptr.rxWp.toNat + bs.length < 256) :
    (bytesStored bs s).ptr.rxWp.toNat = s.ptr.rxWp.toNat + bs.length := by
  rw [bytesStored, setRxWp_ptr_rxWp]
  bv_omega

/-- The byte that completes a frame goes behind the bytes received from index 0 on. -/
theorem byteStored_bytesStored {bs : List Byte} {s : State} (hwp : s.ptr.rxWp = 0) (hroom : bs.length < 256) (b : Byte) :
    setRxWp (byteStored b (bytesStored bs s)) 0 = setBuf s .rx (memWriteBytes s.buf.rx 0 (bs ++ [b])) := by
  have emptied : { s.ptr with rxWp := 0 } = s.ptr := by rw [← hwp]
  have at_start : s.ptr.rxWp.toNat = 0 := by rw [hwp]; rfl
  rw [byteStored, bytesStored_rxWp_toNat (by omega), at_start, memWriteBytes_append]
  simp only [bytesStored, setRxWp, setBuf, getBuf, at_start, memWriteBytes, emptied]

/-- An encoded payload that comes between two frames is stored, decoded in place and acted on; nothing is accumulated then. -/
theorem receiveBytes_encodeWire {payload : List Byte} (h : payload.length ≤ 252) (now : Time) {s : State} (hwp : s.ptr.rxWp = 0)
    (hw : s.buf.rx.wf = true) :
    ∃ m, receiveBytes now (encodeWire payload) s = finish (receivePayload payload now (setBuf s .rx m)) := by
  have at_start : s.ptr.rxWp.toNat = 0 := by rw [hwp]; rfl
  have hlen : (cobsEnc payload).length + 1 = payload.length + 2 :=
    (encodeWire_length_succ payload).symm.trans (encodeWire_length h)
  have room : s.ptr.rxWp.toNat + (cobsEnc payload).length < 256 := by omega
  have held := bytesStored_rxWp_toNat room
  have readback : memReadBytes (memWriteBytes s.buf.rx 0 (encodeWire payload)) 0 ((cobsEnc payload).length + 1) = encodeWire payload := by
    rw [hlen, ← encodeWire_length h]
    exact memReadBytes_writeBytes 0 _ hw
  refine ⟨memWriteBytes (memWriteBytes s.buf.rx 0 (encodeWire payload)) 0 payload, ?_⟩
  calc receiveBytes now (encodeWire payload) s
      = exec (.rxByte Config.delim now) (bytesStored (cobsEnc payload) s) :=
        (receiveBytes_append (receiveBytes_of_data now (delim_notMem_cobsEnc payload) room) _).trans (receiveBytes_singleton now _ _)
    _ = exec (.rxFrame ((cobsEnc payload).length + 1) now) (setBuf s .rx (memWriteBytes s.buf.rx 0 (encodeWire payload))) := by
        rw [exec_rxByte_of_delim (by omega), held, at_start, Nat.zero_add, byteStored_bytesStored hwp (by omega), encodeWire]
    _ = finish (receivePayload payload now
          (setBuf s .rx (memWriteBytes (memWriteBytes s.buf.rx 0 (encodeWire payload)) 0 payload))) := by
        rw [exec_rxFrame (Nat.le_add_left _ _) (by omega), rxFrame_eq now _ (show _ ≤ 256 by omega)]
        simp only [setBuf, readback, cobsDec_encodeWire]

/-- A payload built by a sender passes both checks, and `ACK_HANDLING` writes no inbound number, so a new number is still new after it. -/
theorem receivePayload_of_new {msg : List Byte} (hlo : 1 ≤ msg.length) (hhi : msg.length ≤ 248) (a : Byte) {o : Byte} {s : State}
    (hnew : o ≠ s.inb.peerSeq) (now : Time) :
    receivePayload (buildPayload msg a o) now s = .ok (messageHeld o msg (ackHandling a now (goodFrame now s))) := by
  obtain ⟨_, inb, _⟩ := ackHandling_keeps a now (goodFrame now s)
  have carries : msg ≠ [] := List.ne_nil_of_length_pos hlo
  have hlen := buildPayload_length msg a o
  have still_new : o ≠ (ackHandling a now (goodFrame now s)).inb.peerSeq := by rw [inb]; exact hnew
  have taken := dataHandling_of_new (d := buildPayload msg a o) (by omega) still_new
  rw [buildPayload, payloadMsg_payloadOf] at taken
  exact (receivePayload_payloadOf hhi a o _ now s).trans <| (if_neg (not_not.2 rfl)).trans <| (if_neg carries).trans taken

/-- `ACK_HANDLING` writes no buffer and no pointer, and counts nothing of the receiving side. -/
theorem ackHandling_keeps_receiver (a : Byte) (now : Time) (s : State) :
    (ackHandling a now s).buf = s.buf ∧ (ackHandling a now s).ptr = s.ptr ∧ (ackHandling a now s).stat.rxOk = s.stat.rxOk ∧
      (ackHandling a now s).stat.rxFail = s.stat.rxFail := by
  rcases ackHandling_cases a now s with ⟨_, _, e⟩ | ⟨_, e⟩ <;> rw [e] <;> exact ⟨rfl, rfl, rfl, rfl⟩

/-- Settles O60: the frame is the encoding of a payload that passes the receiver's checks, and its number is new. -/
theorem loadedFrameDeliversMessage : Obligations.LoadedFrameDeliversMessage := by
  intro A B msg now hlo hhi hempty hwA hwp hwB hwIn hnew
  have short : (frameOf msg A.inb.ackSeq A.outb.ourSeq).length ≤ 256 := by rw [frameOf_length hhi]; omega
  obtain ⟨txLen, _, _, frame, _⟩ := loadsFrame_of_withFrame short hwA rfl rfl
  have hlen := buildPayload_length msg A.inb.ackSeq A.outb.ourSeq
  obtain ⟨m, received⟩ := receiveBytes_encodeWire (payload := buildPayload msg A.inb.ackSeq A.outb.ourSeq) (by omega) now hwp hwB
  rw [receivePayload_of_new hlo hhi _ (s := setBuf B .rx m) hnew now, finish_ok] at received
  obtain ⟨_, inb, _⟩ := ackHandling_keeps A.inb.ackSeq now (goodFrame now (setBuf B .rx m))
  obtain ⟨buf, ptr, rxOk, rxFail⟩ := ackHandling_keeps_receiver A.inb.ackSeq now (goodFrame now (setBuf B .rx m))
  change receiveBytes now (frameOf msg A.inb.ackSeq A.outb.ourSeq) B = _ at received
  rw [← frame, ← txLen] at received
  refine ⟨_, _, exec_loadFrame_of_empty hhi hempty, received, firstBytes_of_written rfl ?_, ?_, ?_, ptr, rxOk, rxFail⟩
  · rw [getBuf_congr buf]; exact hwIn
  · rw [messageHeld, BitVec.toNat_ofNat]; omega
  · rw [messageHeld, inb]; rfl

end Sys2Proof.Machine
end

section
/-! `TX_SELECT` and the retry intervals it arms (45_link_tx.md R210 to R214, R222): which branch the registers select, the state each branch
leaves, and the doubling up to the cap. -/

namespace Sys2Proof.Machine

/-! ## Which branch (45_link_tx.md R210) -/

/-- No message is new and none has timed out: neither branch 1 nor branch 2 fires. -/
def NoMessageDue (now : Time) (s : State) : Prop :=
  s.outb.outgoingLen = 0 ∨ (s.outb.lastTxTime ≠ 0 ∧ now - s.outb.lastTxTime ≤ s.outb.timeout)

theorem outgoing_pos_iff (s : State) : 0 < s.outb.outgoingLen ↔ s.outb.outgoingLen ≠ 0 := by bv_omega

theorem outboundPending_iff (s : State) : outboundPending s = true ↔ s.outb.outgoingLen ≠ 0 ∧ s.outb.lastTxTime = 0 := by
  rw [outboundPending, Bool.and_eq_true, decide_eq_true_iff, beq_iff_eq, outgoing_pos_iff]

theorem retryExpired_iff (now : Time) (s : State) : retryExpired s now = true ↔ s.outb.timeout < now - s.outb.lastTxTime := decide_eq_true_iff

theorem keepaliveExpired_iff (now : Time) (s : State) :
    keepaliveExpired s now = true ↔ s.cfg.keepaliveTxInterval < now - s.outb.lastTxOut := decide_eq_true_iff

theorem txSelect_of_new {s : State} (hbusy : s.outb.outgoingLen ≠ 0) (hnew : s.outb.lastTxTime = 0) (now : Time) :
    txSelect now s = loadDataFrame now s :=
  if_pos ((outboundPending_iff s).2 ⟨hbusy, hnew⟩)

theorem txSelect_of_timeout {now : Time} {s : State} (hbusy : s.outb.outgoingLen ≠ 0) (hsent : s.outb.lastTxTime ≠ 0)
    (hlate : s.outb.timeout < now - s.outb.lastTxTime) : txSelect now s = branchRetransmit now s :=
  (if_neg fun h => hsent ((outboundPending_iff s).1 h).2).trans <|
    if_pos ⟨(outgoing_pos_iff s).2 hbusy, (retryExpired_iff now s).2 hlate⟩

/-- With no message due the last two conditions decide, and both load the frame of the empty message. -/
theorem txSelect_of_noMessageDue {now : Time} {s : State} (h : NoMessageDue now s) :
    txSelect now s = if s.inb.ackRequired = true ∨ keepaliveExpired s now = true then branchAck now s else .ok s := by
  have not_new : ¬(s.outb.outgoingLen ≠ 0 ∧ s.outb.lastTxTime = 0) := fun ⟨hbusy, hnew⟩ => h.elim hbusy (·.1 hnew)
  have not_late : ¬(s.outb.outgoingLen ≠ 0 ∧ s.outb.timeout < now - s.outb.lastTxTime) := fun ⟨hbusy, hlate⟩ =>
    h.elim hbusy fun ⟨_, intime⟩ => BitVec.not_lt.2 intime hlate
  rw [← outboundPending_iff] at not_new
  rw [← outgoing_pos_iff, ← retryExpired_iff] at not_late
  rcases txSelect_cases now s with ⟨hpend, _⟩ | ⟨_, hpos, hexp, _⟩ | ⟨_, _, howed, e⟩ | ⟨_, _, _, hkeep, e⟩ | ⟨_, _, howed, hkeep, e⟩
  · exact absurd hpend not_new
  · exact absurd ⟨hpos, hexp⟩ not_late
  · rw [e, if_pos (.inl howed)]
  · rw [e, if_pos (.inr hkeep)]; rfl
  · rw [e, howed, hkeep, if_neg (by decide)]

theorem exec_txSelect_of_empty {s : State} (hempty : s.ptr.txLen = 0) (now : Time) : exec (.txSelect now) s = finish (txSelect now s) :=
  congrArg finish (if_pos hempty)

/-- Settles O43. -/
theorem nothingDueNothingLoaded : Obligations.NothingDueNothingLoaded := by
  intro s now
  have busy (h : s.ptr.txLen ≠ 0) : exec (.txSelect now) s = .next s := congrArg finish (txSelectWhenEmpty_of_busy now h)
  refine ⟨busy, fun hdue hack halive => ?_⟩
  by_cases hempty : s.ptr.txLen = 0
  · have alive : ¬keepaliveExpired s now = true := fun h => BitVec.not_lt.2 halive ((keepaliveExpired_iff now s).1 h)
    rw [exec_txSelect_of_empty hempty, txSelect_of_noMessageDue hdue, hack, if_neg (by simpa using alive), finish_ok]
  · exact busy hempty

/-! ## Branches 3 and 4 (45_link_tx.md R213, R214) -/

theorem branchAck_eq (now : Time) (s : State) :
    branchAck now s = .ok (frameLoaded now (withFrame (frameOf [] s.inb.ackSeq s.outb.ourSeq) s)) := by
  rw [branchAck, loadFrame_eq (Nat.zero_le _), andThen_ok]

/-- Settles O42. -/
theorem ackOrKeepaliveIsLoaded : Obligations.AckOrKeepaliveIsLoaded := by
  intro s now hempty hw hdue howed
  have hlen : (frameOf [] s.inb.ackSeq s.outb.ourSeq).length = 6 := frameOf_length (Nat.zero_le _) _ _
  rw [← keepaliveExpired_iff] at howed
  refine ⟨frameLoaded now (withFrame (frameOf [] s.inb.ackSeq s.outb.ourSeq) s), ?_, loadsFrame_of_withFrame (by omega) hw rfl rfl,
    congrArg (BitVec.ofNat 9) hlen, rfl, rfl, rfl, rfl, UnitsKept.refl s⟩
  rw [exec_txSelect_of_empty hempty, txSelect_of_noMessageDue hdue, if_pos howed, branchAck_eq, finish_ok]

/-! ## Branches 1 and 2 (45_link_tx.md R211, R212) -/

/-- The state with the stash's message loaded at `now` and the retry timer armed for its frame. -/
def messageSent (now : Time) (s : State) : State :=
  armRetry (frameLoaded now (withFrame (frameOf (firstBytes s .outgoing s.outb.outgoingLen.toNat) s.inb.ackSeq s.outb.ourSeq)
    { s with outb := { s.outb with lastTxTime := now } }))

theorem loadDataFrame_eq (now : Time) {s : State} (h : s.outb.outgoingLen.toNat ≤ 248) :
    loadDataFrame now s = .ok (messageSent now s) := by
  obtain ⟨t, ht⟩ := loadDataFrame_answers now h
  obtain ⟨u, hload, rfl⟩ := loadDataFrame_eq_ok ht
  rw [loadFrame_eq (by simpa [firstBytes] using h)] at hload
  rw [ht, ← Except.ok.inj hload]
  rfl

theorem loadsFrame_messageSent (now : Time) {s : State} (hlen : s.outb.outgoingLen.toNat ≤ 248) (hw : s.buf.tx.wf = true) :
    LoadsFrame (frameOf (firstBytes s .outgoing s.outb.outgoingLen.toNat) s.inb.ackSeq s.outb.ourSeq) s (messageSent now s) := by
  have hmsg : (firstBytes s .outgoing s.outb.outgoingLen.toNat).length ≤ 248 := by rwa [firstBytes, memReadBytes_length]
  exact loadsFrame_of_withFrame (by rw [frameOf_length hmsg]; omega) hw rfl rfl

/-- The high-water mark is the greatest interval recorded (10_state.md R33). -/
theorem armRetry_maxRetryIntervalIssued_toNat (s : State) : (armRetry s).stat.maxRetryIntervalIssued.toNat =
    max s.stat.maxRetryIntervalIssued.toNat (armRetry s).outb.timeout.toNat := by
  simp only [armRetry]
  split <;> rename_i h <;> rw [BitVec.lt_def] at h <;> omega

/-- Settles O40. -/
theorem newMessageIsLoaded : Obligations.NewMessageIsLoaded := by
  intro s now hempty hw hbusy hlen hnew
  refine ⟨messageSent now s, ?_, loadsFrame_messageSent now hlen hw, rfl, rfl, armRetry_maxRetryIntervalIssued_toNat _, rfl, rfl,
    UnitsKept.refl s⟩
  rw [exec_txSelect_of_empty hempty, txSelect_of_new hbusy hnew, loadDataFrame_eq now hlen, finish_ok]

/-- The state with one more retransmission counted, the first line of branch 2. -/
def retryCounted (s : State) : State :=
  { s with stat := { s.stat with txTotalRetries := countUp s.params s.stat.txTotalRetries },
           outb := { s.outb with retryCount := s.outb.retryCount + 1 } }

theorem branchRetransmit_of_retriesLeft (now : Time) {s : State} (h : s.outb.retryCount.toNat < 10) :
    branchRetransmit now s = loadDataFrame now (retryCounted s) :=
  if_neg (show ¬10 < (s.outb.retryCount + 1).toNat by bv_omega)

theorem branchRetransmit_of_exhausted (now : Time) {s : State} (h : s.outb.retryCount.toNat = 10) :
    branchRetransmit now s = .ok (raiseError .retransmissionExhausted (retryCounted s)) :=
  if_pos (show 10 < (s.outb.retryCount + 1).toNat by bv_omega)

/-- Settles O41: counting the retransmission writes neither the stash nor the sequence numbers. -/
theorem timeoutRetransmitsOrGivesUp : Obligations.TimeoutRetransmitsOrGivesUp := by
  intro s now hempty hbusy hsent hlate
  have selected := (exec_txSelect_of_empty hempty now).trans (congrArg finish (txSelect_of_timeout hbusy hsent hlate))
  refine ⟨fun hleft hw hlen => ?_, fun hlast => ?_⟩
  · have counted : (retryCounted s).outb.retryCount.toNat = s.outb.retryCount.toNat + 1 := by
      simp only [retryCounted]; bv_omega
    rw [selected, branchRetransmit_of_retriesLeft now hleft, loadDataFrame_eq now (s := retryCounted s) hlen, ← counted]
    exact ⟨messageSent now (retryCounted s), rfl, loadsFrame_messageSent now (s := retryCounted s) hlen hw, rfl, rfl,
      armRetry_maxRetryIntervalIssued_toNat _, rfl, rfl, UnitsKept.refl s⟩
  · rw [selected, branchRetransmit_of_exhausted now hlast]
    rfl

/-! ## `BACKOFF` (45_link_tx.md R222) -/

/-- A doubling at or under a cap below 2^63 does not wrap, so leaving the loop at the cap is taking the minimum. -/
theorem backoffLoop_toNat {cap : Time} (hcap : cap.toNat < 2 ^ 63) (n : Nat) {t : Time} (h : t ≤ cap) :
    (backoffLoop cap n t).toNat = min (t.toNat * 2 ^ n) cap.toNat := by
  rw [BitVec.le_def] at h
  induction n generalizing t with
  | zero => rw [pow_zero, Nat.mul_one, backoffLoop, Nat.min_eq_left h]
  | succ n ih =>
    have doubled : (t * BitVec.ofNat 64 Config.retryBase).toNat = t.toNat * 2 := by
      rw [Config.retryBase, BitVec.toNat_mul, BitVec.toNat_ofNat]
      omega
    have further : t.toNat * 2 ^ (n + 1) = t.toNat * 2 * 2 ^ n := by ring
    simp only [backoffLoop, BitVec.lt_def, doubled]
    split
    case isTrue hover =>
      have := Nat.le_mul_of_pos_right (t.toNat * 2) (Nat.two_pow_pos n)
      rw [Nat.min_eq_right (by omega)]
    case isFalse hunder =>
      rw [ih (by omega), doubled, further]

theorem configFor_retryAbsMax_lt (baud : Nat) : (configFor baud).retryAbsMax.toNat < 2 ^ 63 := by
  have le_second : 1000000 / (baud / 10) ≤ 1000000 := Nat.div_le_self _ _
  rw [configFor_retryAbsMax_toNat]
  omega

theorem backoffBase_toNat (txLen : BitVec 9) (baud : Nat) :
    (backoffBase txLen (configFor baud).usPerByte).toNat = 6 * (txLen.toNat + 1) * (configFor baud).usPerByte.toNat := by
  have hus := configFor_usPerByte_le baud
  have hlen : txLen.toNat ≤ 511 := by omega
  have hprod : 6 * (txLen.toNat + 1) * (configFor baud).usPerByte.toNat ≤ 6 * 512 * 1000000 := Nat.mul_le_mul (by omega) hus
  have hfactor : (BitVec.ofNat 64 Config.retryInitialMultiplier * (txLen.setWidth 64 + 1)).toNat = 6 * (txLen.toNat + 1) := by
    rw [Config.retryInitialMultiplier]
    bv_omega
  rw [backoffBase, BitVec.toNat_mul, hfactor, Nat.mod_eq_of_lt (by omega)]

theorem backoff_toNat {s : State} {baud : Nat} (hcfg : s.cfg = configFor baud) (k : Nat) : (backoff s k).toNat =
    min (6 * (s.ptr.txLen.toNat + 1) * s.cfg.usPerByte.toNat * 2 ^ k) s.cfg.retryAbsMax.toNat := by
  rw [backoff, hcfg, backoffLoop_toNat (configFor_retryAbsMax_lt baud) k (backoffBase_le _ baud), backoffBase_toNat]

theorem exec_backoff {s : State} (hc : s.cfg.configured = true) (k : Nat) :
    exec (.backoff k) s = .next (respond s (.time (backoff s k))) := if_pos hc

/-- Settles O26: the base is under the cap, so the closed form covers `k = 0` as well, and it never falls with `k`. -/
theorem backoffDoublesToCap : Obligations.BackoffDoublesToCap := by
  refine fun s k hc => ⟨backoff s k, backoff s (k + 1), exec_backoff hc k, exec_backoff hc (k + 1), fun baud _ hcfg _ => ?_⟩
  have value := backoff_toNat hcfg k
  have next := backoff_toNat hcfg (k + 1)
  have base_le : backoffBase s.ptr.txLen s.cfg.usPerByte ≤ s.cfg.retryAbsMax := hcfg ▸ backoffBase_le _ baud
  refine ⟨?_, fun _ => value, backoffLoop_le _ k _ base_le, ?_⟩
  · rintro rfl
    rw [backoff, backoffLoop, hcfg, backoffBase_toNat]
  · rw [BitVec.le_def, value, next, pow_succ, ← Nat.mul_assoc]
    omega

end Sys2Proof.Machine
end

section
/-! `TX_PUSH` (45_link_tx.md R224): the bytes it hands over, in order, and where the read pointer stands then. -/

namespace Sys2Proof.Machine

theorem memReadBytes_eq_map_range (m : Memory) (i n : Nat) :
    memReadBytes m i n = (List.range n).map fun j => memReadByte m (i + j) :=
  List.ext_getElem (by simp) fun k h _ => by rw [memReadBytes_getElem m i n k h]; simp

/-- The 9-bit pointer reaches `tx_len` exactly when as many bytes as are left have gone. -/
theorem advanceTx_eq {k : Nat} {s : State} (hlen : s.ptr.txLen.toNat ≤ 256) (hk : s.ptr.txRp.toNat + k ≤ s.ptr.txLen.toNat) :
    advanceTx k s = { s with
      ptr := if s.ptr.txRp.toNat + k = s.ptr.txLen.toNat then { s.ptr with txLen := 0, txRp := 0 }
             else { s.ptr with txRp := BitVec.ofNat 9 (s.ptr.txRp.toNat + k) } } := by
  have moved : s.ptr.txRp + BitVec.ofNat 9 k = BitVec.ofNat 9 (s.ptr.txRp.toNat + k) := by bv_omega
  have done_iff : BitVec.ofNat 9 (s.ptr.txRp.toNat + k) = s.ptr.txLen ↔ s.ptr.txRp.toNat + k = s.ptr.txLen.toNat := by bv_omega
  simp only [advanceTx, moved, done_iff]
  split <;> rfl

/-- Settles O46. -/
theorem pushHandsOverInOrder : Obligations.PushHandsOverInOrder := by
  intro s
  refine ⟨fun hempty => congrArg finish (if_pos hempty), fun hbusy hrp hlen => ?_⟩
  obtain ⟨hempty, _⟩ | ⟨_, k, hk, e⟩ := txPush_cases s hlen hrp
  · exact absurd hempty hbusy
  · refine ⟨k, hk, (congrArg finish e).trans ?_⟩
    have left : s.ptr.txRp.toNat + k ≤ s.ptr.txLen.toNat := by omega
    rw [memReadBytes_eq_map_range, advanceTx_eq (by exact hlen) (by exact left)]
    simp only [tWrite, tAvailableForWrite_env_txFifo]
    rfl

end Sys2Proof.Machine
end

section
/-! The event `RESET` (70_reset_and_hazards.md R300): the state it leaves, from any state. -/

namespace Sys2Proof.Machine

theorem exec_reset (s : State) : exec .reset s = .next { State.resetWith s.params with
    buf := freeBuffers s.env.resets, env := { s.env with resets := s.env.resets + 1 }, host := s.host } := rfl

/-- Settles O51: the registers are those of `State.resetWith`, and the free contents of a buffer are bounded and canonical because the
invariant holds after the event. -/
theorem resetEventFromAnyState : Obligations.ResetEventFromAnyState := by
  intro s
  have after_reset := inv_of_exec_reset (exec_reset s)
  exact ⟨_, exec_reset s, rfl, rfl, rfl, rfl, rfl, rfl, rfl, rfl, rfl, rfl, after_reset.buffers⟩

end Sys2Proof.Machine
end
